-- ==== Sys2Proof/Word.lean ====
section
/-! DEFINITION. The word types of the Borvel 5416: what the manual treats as bits. -/

namespace Sys2Proof

/-- One byte of a cell. -/
abbrev Byte := BitVec 8

/-- A round number: unsigned, 32 bits, arithmetic modulo 2^32 (R1). -/
abbrev Round := BitVec 32

/-- A sample value or level: signed 24-bit, read with `BitVec.toInt` (00_scope, Conventions). -/
abbrev Sample := BitVec 24

/-- An epoch: 16 bits, modulo 65,536 (R153). -/
abbrev Epoch := BitVec 16

/-- A set of channels 0 to 15; bit n is channel n (R151). -/
abbrev ChannelMask := BitVec 16

/-- A set of trigger entries 0 to 7; bit n is entry n (R151). -/
abbrev EntryMask := BitVec 8

/-- A 32-bit argument, value or aux. -/
abbrev Word32 := BitVec 32

/-- A window id: 16 bits, modulo 65,536 (R87). -/
abbrev WindowId := BitVec 16

/-- The 19 bytes an FE_REPLY relays (R19), byte 1 the most significant. -/
abbrev RelayBytes := BitVec 152

/-- Bytes 2 to 21 of a REQUEST, which an FE_COMMAND carries (R176). -/
abbrev CommandBytes := BitVec 160

/-- Bytes 0 to 21 of a cell, byte 0 the most significant (R187). -/
abbrev CellHead := BitVec 176

/-- All 24 bytes of a cell, byte 0 the most significant (R187). -/
abbrev RawCell := BitVec 192

end Sys2Proof
end

