-- ==== Sys2Proof/Config.lean ====
section
/-! DEFINITION. The numbers the manual fixes for this part. The manual leaves no number to an implementation and
states a value for every result of every command, so there is no free value here. -/

namespace Sys2Proof.Config

/-- R24: the History Store holds at most 512 records. -/
def ringCapacity : Nat := 512

/-- R87: the window list holds at most 6 windows. -/
def windowSlots : Nat := 6

/-- R134, R105, R137, R138: heads, sample groups and relays are admitted up to this occupancy. -/
def dataLimit : Nat := 240

/-- R139, R140: events and replies are admitted below this occupancy. -/
def reserveLimit : Nat := 250

/-- R134: the store of the egress queue. -/
def queueCapacity : Nat := 256

/-- R145: the ceiling of the credit counter. -/
def creditLimit : Nat := 1023

/-- R172: the request FIFO holds at most 8 requests. -/
def fifoCapacity : Nat := 8

/-- R177: the longest lease period, in ms. -/
def leaseLimit : Nat := 60000

/-- R48, R59, R153: the assert count, the fire counts and the write count saturate here. -/
def countLimit : Nat := 65535

/-- R183: a counter stops here. -/
def counterLimit : Nat := 4294967295

/-- R1: the longest forward distance that makes a round "after" another. -/
def halfCircle : Nat := 2147483647

/-- R17, R177: expiry times are on the microsecond timer, periods in ms. -/
def microsPerMilli : Nat := 1000

end Sys2Proof.Config
end

