-- ==== Sys2Proof/Syntax.lean ====
section
/-! DEFINITION. The commands: one constructor per row of spec/opcode_table.json. The rows carry no bits. A command
that reports something from outside the part (a cell on a lane) carries the cell's fields and `dt`, the microseconds
of the local timer since the command before (notes/assumptions/3). Every other command is one block taking the item at
the front of one of its input paths, and the item stands in the state. -/

namespace Sys2Proof

/-- The two receiving lanes (R188). -/
inductive Lane
  | streamIn
  | controlIn
  deriving DecidableEq, Repr

/-- The body of a REQUEST cell, bytes 1 to 21 (R190): the six argument bytes, the value and bytes 12 to 21. -/
structure Request where
  dest  : Byte
  tag   : Byte
  kind  : Byte
  area  : Byte
  table : Byte
  index : Byte
  field : Byte
  value : Word32
  rest  : BitVec 80
  deriving DecidableEq, Repr

/-- The blocks that offer EVENT cells to the Egress Queue (Table 7-2); the queue's own event is offered within
CREDIT_NOTICE. -/
inductive EventSource
  | assembler
  | triggerTable
  | windowEngine
  | agent
  deriving DecidableEq, Repr

/-- The two blocks that acknowledge epoch marks and node-reset notices (R164, R182). -/
inductive Acknowledger
  | windowEngine
  | outputLines
  deriving DecidableEq, Repr

/-- The commands, in the table's order. -/
inductive Instr
  -- power, clock and lanes
  | powerOnReset
  | refclkLoss
  | refclkReturn
  | laneCellDiscard (dt : Nat) (lane : Lane) (cell : Option RawCell)
  -- Round Assembler
  | roundCell (dt : Nat) (number : Round) (declared : ChannelMask)
  | sampleCell (dt : Nat) (channel low : Byte) (value : Sample)
  | feReplyRelay (dt : Nat) (body : RelayBytes)
  | silenceExpiry
  | commitStart
  | nodeResetStart
  -- History Store
  | recordAppend
  | historyRestartNotice
  | historyLostNotice
  | historyEpochMark
  | historyNodeResetNotice
  -- Condition Evaluator
  | recordEvaluation
  | evaluatorLostNotice
  | evaluatorRestartNotice
  | evaluatorEpochMark
  | evaluatorNodeResetNotice
  -- Trigger Table
  | verdict
  | armNotice
  | disarmNotice
  | fireNotice
  | triggerSafeState
  | triggerSessionOpen
  | triggerClose
  | triggerRestartNotice
  | triggerLostNotice
  | triggerEpochMark
  | triggerNodeResetNotice
  -- Window Engine
  | openRequest
  | storedNotice
  | overwrittenNotice
  | windowLostNotice
  | flushedRestartNotice
  | flushedNodeResetNotice
  | roomNotice
  | tailTransmittedNotice
  | windowSafeState
  | windowSessionOpen
  | windowEpochMark
  | windowNodeResetNotice
  -- Output Line Unit
  | lineStep
  | lineNotice
  | lineSafeState
  | lineSessionOpen
  | lineClose
  | lineLostNotice
  | lineRestartNotice
  | lineEpochMark
  | lineNodeResetNotice
  -- Egress Queue
  | liveOffer
  | relayOffer
  | winHeadOffer
  | winSampleGroupOffer
  | winTailOffer
  | eventOffer (source : EventSource)
  | replyOffer
  | transmissionStart
  | transmissionCompletion
  | creditNotice
  | settingsAdoption
  -- Management Agent
  | requestArrival (dt : Nat) (request : Request)
  | unknownKindService
  | openSession
  | closeSession
  | renew
  | readActive
  | readStaging
  | readHistory
  | readStateHistory
  | readStateCondition
  | readStateTrigger
  | readStateWindow
  | readStateLine
  | readStateEgress
  | readStateAgent
  | readCounters
  | write
  | revert
  | commit
  | markRoundReport
  | markAck (source : Acknowledger)
  | arm
  | disarm
  | fireRequest
  | line
  | dispatch
  | noticeAck
  | clearCounters
  | nodeReset
  | nodeResetAck (source : Acknowledger)
  | frontRelay
  | feCommandTxComplete
  | leaseExpiry
  deriving DecidableEq, Repr

end Sys2Proof
end

