-- ==== Sys2Proof/Machine/State.lean ====
section
/-! DEFINITION. The state of the Borvel 5416: every item the manual gives each block (Tables 1-2, 3-4, 4-2, 4-3, 5-2,
5-3, 6-2, 7-1, 8-3, 9-1), the paths between the blocks, the local timer and the reference clock, and the queue of
waiting commands. Plain data throughout. -/

namespace Sys2Proof.Machine

/-! ## Configuration tables (R151, Table 8-2) -/

/-- CHANNEL mode: OFF 0, PASS 1, GATE 2. -/
inductive ChannelMode
  | off
  | pass
  | gate
  deriving DecidableEq, Repr

/-- CHANNEL condition: NONE 0, ABOVE 1, BELOW 2, OUTSIDE 3, INSIDE 4, RISE_STEP 5, FALL_STEP 6. -/
inductive ConditionKind
  | never
  | above
  | below
  | outside
  | inside
  | riseStep
  | fallStep
  deriving DecidableEq, Repr

/-- One entry of the CHANNEL table (Table 3-1): six fields. -/
structure ChannelEntry where
  mode       : ChannelMode
  condition  : ConditionKind
  levelA     : Sample
  levelB     : Sample
  hysteresis : Nat
  qualify    : Nat
  deriving DecidableEq, Repr

/-- TRIGGER combine: ANY 0, ALL 1, AFTER 2, WIDTH 3, SCHEDULE 4. -/
inductive Combine
  | any
  | all
  | after
  | width
  | schedule
  deriving DecidableEq, Repr

/-- TRIGGER policy: SINGLE 0, REPEAT 1. -/
inductive Policy
  | single
  | repeating
  deriving DecidableEq, Repr

/-- TRIGGER line action: SET 0, CLEAR 1, TOGGLE 2, PULSE 3. -/
inductive LineAction
  | set
  | clear
  | toggle
  | pulse
  deriving DecidableEq, Repr

/-- One entry of the TRIGGER table (Table 4-1): sixteen fields, of which width min and width max are one (R151). -/
structure TriggerEntry where
  combine     : Combine
  sources     : ChannelMask
  refEntry    : Fin 8
  within      : Nat
  widthMin    : Nat
  widthMax    : Nat
  compare     : Round
  interval    : Nat
  policy      : Policy
  holdoff     : Nat
  armAtCommit : Bool
  profile     : Option (Fin 4)
  line        : Option (Fin 8)
  lineAction  : LineAction
  pulseLength : Nat
  event       : Bool
  chainMask   : EntryMask
  deriving DecidableEq, Repr

/-- PROFILE overlap: SEPARATE 0, EXTEND 1, IGNORE 2. -/
inductive Overlap
  | separate
  | extend
  | ignore
  deriving DecidableEq, Repr

/-- One entry of the PROFILE table (Table 5-1): P, Q, channel mask, overlap, X. -/
structure Profile where
  pre     : Nat
  post    : Nat
  mask    : ChannelMask
  overlap : Overlap
  limit   : Nat
  deriving DecidableEq, Repr

/-- A pin level: LOW 0, HIGH 1. -/
inductive Level
  | low
  | high
  deriving DecidableEq, Repr

/-- One entry of the LINE table (Table 6-1). -/
structure LineEntry where
  enable : Bool
  idle   : Level
  deriving DecidableEq, Repr

/-- The entry of the SETTINGS table; bit n - 1 of the event mask enables event code n. -/
structure Settings where
  silenceTimeout : Nat
  liveLimit      : Nat
  eventMask      : BitVec 9
  deriving DecidableEq, Repr

/-- One bank: the five tables (R151). -/
structure Bank where
  channels : Vector ChannelEntry 16
  triggers : Vector TriggerEntry 8
  profiles : Vector Profile 4
  lines    : Vector LineEntry 8
  settings : Settings
  deriving DecidableEq, Repr

/-- The CHANNEL defaults of Table 8-2. -/
def defaultChannel : ChannelEntry :=
  { mode := .off, condition := .never, levelA := 0, levelB := 0, hysteresis := 0, qualify := 1 }

/-- The TRIGGER defaults of Table 8-2 (R58). -/
def defaultTrigger : TriggerEntry :=
  { combine := .any, sources := 0, refEntry := 0, within := 1, widthMin := 0, widthMax := 0, compare := 0,
    interval := 0, policy := .single, holdoff := 0, armAtCommit := false, profile := none, line := none,
    lineAction := .set, pulseLength := 1, event := false, chainMask := 0 }

/-- The PROFILE defaults of Table 8-2 (R86). -/
def defaultProfile : Profile :=
  { pre := 0, post := 1, mask := 0, overlap := .separate, limit := 16383 }

/-- The LINE defaults of Table 8-2 (R118). -/
def defaultLine : LineEntry := { enable := false, idle := .low }

/-- The SETTINGS defaults of Table 8-2. -/
def defaultSettings : Settings := { silenceTimeout := 20, liveLimit := 128, eventMask := 511 }

/-- A bank of defaults (R153). -/
def defaultBank : Bank :=
  { channels := Vector.replicate 16 defaultChannel, triggers := Vector.replicate 8 defaultTrigger,
    profiles := Vector.replicate 4 defaultProfile, lines := Vector.replicate 8 defaultLine,
    settings := defaultSettings }

/-! ## What travels between the blocks -/

/-- A round record (R5). The present mask is the set of channels that hold a value. -/
structure Record where
  round     : Round
  epoch     : Epoch
  values    : Vector (Option Sample) 16
  complete  : Bool
  gapBefore : Nat
  spanStart : Bool
  deriving DecidableEq, Repr

/-- What the Round Assembler places on both of its output paths (R7). -/
inductive PathItem
  | record (r : Record)
  | lost
  | restart
  | mark (epoch : Epoch)
  | nodeReset
  deriving DecidableEq, Repr

/-- What the History Store sends the Window Engine (Table 2-2). -/
inductive StoreNotice
  | stored (round : Round)
  | overwritten (round : Round)
  | flushedRestart
  | flushedNodeReset
  | lost (newest : Round)
  deriving DecidableEq, Repr

/-- A verdict (Table 3-6). -/
structure Verdict where
  round    : Round
  asserted : ChannelMask
  active   : ChannelMask
  released : List (Fin 16 × Nat)
  deriving DecidableEq, Repr

/-- What the Condition Evaluator places on its path to the Trigger Table (R52). -/
inductive VerdictItem
  | verdict (v : Verdict)
  | lost
  | restart
  | mark (epoch : Epoch)
  | nodeReset
  deriving DecidableEq, Repr

/-- An open request (R70). -/
structure OpenRequest where
  entry   : Fin 8
  round   : Round
  profile : Fin 4
  deriving DecidableEq, Repr

/-- What the Trigger Table places on its path to the Window Engine. -/
inductive EngineItem
  | request (q : OpenRequest)
  | mark (epoch : Epoch)
  | nodeReset
  deriving DecidableEq, Repr

/-- One line action of a line step (R71). -/
structure LineOp where
  line   : Fin 8
  action : LineAction
  length : Nat
  deriving DecidableEq, Repr

/-- A line step: one for each verdict (R71). -/
structure LineStep where
  round   : Round
  actions : List LineOp
  deriving DecidableEq, Repr

/-- What the Trigger Table places on its path to the Output Line Unit. -/
inductive LineItem
  | step (x : LineStep)
  | lost
  | restart
  | mark (epoch : Epoch)
  | nodeReset
  deriving DecidableEq, Repr

/-- What the Egress Queue sends the Window Engine at a transmission start (R142). -/
inductive QueueNotice
  | tailTransmitted (id : WindowId)
  | room
  deriving DecidableEq, Repr

/-- What the Management Agent asks the Round Assembler to insert (R161, R182). -/
inductive AssemblerStart
  | commit (epoch : Epoch)
  | nodeReset
  deriving DecidableEq, Repr

/-- The direct notices of the Agent to the Trigger Table (R74). -/
inductive TriggerNotice
  | arm (mask : EntryMask)
  | disarm (mask : EntryMask)
  | fire (entry : Fin 8)
  | safeState
  | sessionOpen
  | close
  deriving DecidableEq, Repr

/-- The actions a LINE request may name; PULSE is not among them (R124). -/
inductive LineCommand
  | set
  | clear
  | toggle
  deriving DecidableEq, Repr

/-- The direct notices of the Agent to the Output Line Unit (R124 to R127). -/
inductive LineNotice
  | line (n : Fin 8) (action : LineCommand)
  | safeState
  | sessionOpen
  | close
  deriving DecidableEq, Repr

/-- The direct notices of the Agent to the Window Engine (R112, R113). -/
inductive EngineNotice
  | safeState
  | sessionOpen
  deriving DecidableEq, Repr

/-- The Trigger Table's acknowledgement of ARM, DISARM or FIRE: refused or not, and the previous verdict round (R74). -/
structure TriggerAck where
  refused : Bool
  round   : Option Round
  deriving DecidableEq, Repr

/-- What the Output Line Unit did with a LINE notice (R124). -/
inductive LineOutcome
  | refused
  | ignored
  | applied
  deriving DecidableEq, Repr

/-- The Output Line Unit's acknowledgements (R124, R130, R131). -/
inductive LineAck
  | notice (outcome : LineOutcome) (round : Option Round)
  | mark (epoch : Epoch)
  | nodeReset
  deriving DecidableEq, Repr

/-- The Window Engine's acknowledgements (R114, R115). -/
inductive EngineAck
  | mark (epoch : Epoch)
  | nodeReset
  deriving DecidableEq, Repr

/-! ## Egress cells (R190), before their sequence number -/

/-- The nine events (Table 7-4); TRIGGER_FIRED is code 1 and SCHEDULE_SLIP code 9. -/
inductive EventCode
  | triggerFired
  | windowRefused
  | roundGap
  | streamLost
  | streamResumed
  | streamRestart
  | leaseExpired
  | creditOverflow
  | scheduleSlip
  deriving DecidableEq, Repr

/-- An EVENT cell (R147). No round: "round valid" clear and the round field 0. -/
structure EventCell where
  code   : EventCode
  round  : Option Round
  a      : Word32
  b      : Word32
  forced : Bool
  deriving DecidableEq, Repr

/-- The result codes of a REPLY (Table 10-4). -/
inductive Result
  | ok
  | noSession
  | expired
  | inSession
  | badKind
  | badArg
  | count
  | badCfg
  | notHeld
  deriving DecidableEq, Repr

/-- A REPLY cell (R174, R192). -/
structure ReplyCell where
  tag    : Byte
  kind   : Byte
  result : Result
  value  : Word32
  aux    : Word32
  deriving DecidableEq, Repr

/-- A LIVE cell (R16). -/
structure LiveCell where
  channel : Fin 16
  round   : Round
  value   : Sample
  deriving DecidableEq, Repr

/-- A WIN_HEAD cell (R106). -/
structure WinHead where
  id      : WindowId
  entry   : Fin 8
  profile : Fin 4
  trigger : Round
  first   : Round
  last    : Round
  mask    : ChannelMask
  deriving DecidableEq, Repr

/-- A WIN_SAMPLE cell (R107). -/
structure WinSample where
  id       : WindowId
  round    : Round
  channel  : Fin 16
  value    : Sample
  complete : Bool
  deriving DecidableEq, Repr

/-- The flags of a window (Table 5-5). -/
structure WinFlags where
  shortPre   : Bool
  extended   : Bool
  truncated  : Bool
  gap        : Bool
  streamLost : Bool
  aborted    : Bool
  deriving DecidableEq, Repr

/-- A WIN_TAIL cell (R110). -/
structure WinTail where
  id      : WindowId
  last    : Round
  emitted : Nat
  cells   : Nat
  lost    : Nat
  flags   : WinFlags
  deriving DecidableEq, Repr

/-- The three window cell kinds share one FIFO (Table 7-2). -/
inductive WindowCell
  | head (h : WinHead)
  | sample (x : WinSample)
  | tail (t : WinTail)
  deriving DecidableEq, Repr

/-- A cell of Egress Out. -/
inductive EgressCell
  | reply (c : ReplyCell)
  | event (c : EventCell)
  | window (c : WindowCell)
  | relay (c : RelayBytes)
  | live (c : LiveCell)
  deriving DecidableEq, Repr

/-- The cell in transmission on Egress Out, with the sequence number written at its start (R142). -/
structure Sending where
  seq  : BitVec 16
  cell : EgressCell
  deriving DecidableEq, Repr

/-- What the Round Assembler offers the Egress Queue (R7). -/
inductive AssemblerOffer
  | live (c : LiveCell)
  | relay (c : RelayBytes)
  | event (c : EventCell)
  deriving DecidableEq, Repr

/-- What the Window Engine offers the Egress Queue (R138, R94). -/
inductive EngineOffer
  | event (c : EventCell)
  | head (h : WinHead)
  | group (g : List WinSample)
  | tail (t : WinTail)
  deriving DecidableEq, Repr

/-- What the Management Agent offers the Egress Queue. -/
inductive AgentOffer
  | event (c : EventCell)
  | reply (c : ReplyCell)
  deriving DecidableEq, Repr

/-- The direct notice that gives the Egress Queue the settings of a completed commit (R148, R164). -/
structure QueueSettings where
  liveLimit : Nat
  eventMask : BitVec 9
  deriving DecidableEq, Repr

/-! ## The blocks -/

/-- Stream state with the last round: absent in DOWN, held in RUNNING and LOST (Table 1-2). -/
inductive Stream
  | down
  | running (last : Round)
  | lost (last : Round)
  deriving DecidableEq, Repr

/-- The round in assembly (Table 1-2). -/
structure InAssembly where
  round     : Round
  declared  : ChannelMask
  received  : ChannelMask
  epoch     : Epoch
  gapBefore : Nat
  spanStart : Bool
  kept      : Vector (Option Sample) 16
  deriving DecidableEq, Repr

/-- The Round Assembler (Table 1-2). The silence timer holds its expiry time on the local timer while it runs. -/
structure Assembler where
  stream         : Stream
  assembly       : Option InAssembly
  backward       : Nat
  modes          : Vector ChannelMode 16
  silenceTimeout : Nat
  epoch          : Epoch
  pendingMark    : Option Epoch
  silenceExpiry  : Option Nat
  deriving DecidableEq, Repr

/-- The History Store (§2.1): the ring, oldest record first, and the span start. -/
structure Store where
  ring      : List Record
  spanStart : Option Round
  deriving DecidableEq, Repr

/-- The state of a condition unit; QUALIFYING holds its count k. -/
inductive UnitState
  | idle
  | qualifying (k : Nat)
  | active
  deriving DecidableEq, Repr

/-- A condition unit (Table 3-4). -/
structure CondUnit where
  state        : UnitState
  previous     : Option Sample
  lastAssert   : Option Round
  lastRelease  : Option Round
  lastDuration : Option Nat
  assertCount  : Nat
  deriving DecidableEq, Repr

/-- The Condition Evaluator (R38, R42). -/
structure Evaluator where
  entries : Vector ChannelEntry 16
  units   : Vector CondUnit 16
  epoch   : Epoch
  deriving DecidableEq, Repr

/-- The state of a trigger entry; the holdoff base is present in HOLDOFF only (Table 4-2). -/
inductive EntryState
  | disarmed
  | armed
  | holdoff (base : Round)
  | fired
  deriving DecidableEq, Repr

/-- The live state of a trigger entry (Table 4-2). -/
structure EntryLive where
  state     : EntryState
  fireCount : Nat
  lastFire  : Option Round
  compare   : Round
  forceMark : Bool
  deriving DecidableEq, Repr

/-- The Trigger Table (Table 4-3 and R58). -/
structure TriggerTable where
  entries         : Vector TriggerEntry 8
  live            : Vector EntryLive 8
  held            : Bool
  previousVerdict : Option Round
  epoch           : Epoch
  deriving DecidableEq, Repr

/-- The four window states (§5.2); OPEN is `opened`. -/
inductive WindowState
  | opened
  | draining
  | closing
  | closed
  deriving DecidableEq, Repr

/-- A window record (Table 5-2). `pre`, `post`, `mask` and `limit` are the profile copy. -/
structure Window where
  id      : WindowId
  entry   : Fin 8
  profile : Fin 4
  pre     : Nat
  post    : Nat
  mask    : ChannelMask
  limit   : Nat
  trigger : Round
  first   : Round
  last    : Round
  cursor  : Round
  headSent : Bool
  state   : WindowState
  flags   : WinFlags
  emitted : Nat
  cells   : Nat
  lost    : Nat
  deriving DecidableEq, Repr

/-- Where a service pass stands (R101): before its step 2, or serving ready windows. -/
inductive PassStage
  | settling
  | serving
  deriving DecidableEq, Repr

/-- What a READ of the Window Engine sees (R117): the list, the held flag and the next window id. -/
structure EngineView where
  windows : List Window
  held    : Bool
  nextId  : WindowId
  deriving DecidableEq, Repr

/-- A service pass that waits for the Egress Queue to take an offer (notes/assumptions/5): its stage, and what the
engine held before the event that started it, which a READ taken meanwhile reports (R101). -/
structure Pass where
  stage  : PassStage
  before : EngineView
  deriving DecidableEq, Repr

/-- The Window Engine (Table 5-3, R86). `ackDue` is the acknowledgement of the mark or node-reset notice that the engine
is taking, sent when the event has ended with its service pass (notes/assumptions/24). -/
structure Engine where
  windows   : List Window
  nextId    : WindowId
  held      : Bool
  frontier  : Option Round
  lostFlag  : Bool
  balance   : Int
  profiles  : Vector Profile 4
  epoch     : Epoch
  pass      : Option Pass
  ackDue    : Option EngineAck
  deriving DecidableEq, Repr

/-- A line: INACTIVE, ACTIVE with no pulse end (levelled), or ACTIVE with one (pulsing) (R119). -/
inductive LineState
  | inactive
  | levelled
  | pulsing (until_ : Round)
  deriving DecidableEq, Repr

/-- The Output Line Unit (Table 6-2). The pins are computed from it (R120). -/
structure LineUnit where
  entries  : Vector LineEntry 8
  lines    : Vector LineState 8
  held     : Bool
  lastStep : Option Round
  epoch    : Epoch
  deriving DecidableEq, Repr

/-- The Egress Queue (Table 7-1). The occupancy is the sum of the five lengths. -/
structure Egress where
  replies      : List ReplyCell
  events       : List EventCell
  windows      : List WindowCell
  relays       : List RelayBytes
  lives        : List LiveCell
  sending      : Option Sending
  credits      : Nat
  nextSeq      : BitVec 16
  waitingReply : Option ReplyCell
  liveLimit    : Nat
  eventMask    : BitVec 9
  deriving DecidableEq, Repr

/-- The service phase (Table 9-1). -/
inductive Phase
  | free
  | dispatching
  | awaitingAck
  | awaitingRoom
  deriving DecidableEq, Repr

/-- The session state (Table 9-1). -/
inductive Session
  | closed
  | opened
  | expired
  deriving DecidableEq, Repr

/-- The Assembler's report of the mark round (Table 8-3): absent, "none", or a round. -/
inductive MarkRound
  | absent
  | noRound
  | round (r : Round)
  deriving DecidableEq, Repr

/-- The Management Agent (Tables 8-3 and 9-1). `engineAcked` and `linesAcked` are which of the two acknowledgements
of the commit or node reset in progress the Agent has taken (R164, R182). -/
structure Agent where
  fifo              : List Request
  phase             : Phase
  nodeResetting     : Bool
  session           : Session
  leasePeriod       : Nat
  leaseExpiry       : Option Nat
  active            : Bank
  staging           : Bank
  epoch             : Epoch
  writeCount        : Nat
  committing        : Bool
  markRound         : MarkRound
  engineAcked       : Bool
  linesAcked        : Bool
  deriving DecidableEq, Repr

/-- The 21 counters (Table 9-4), each 32 bits. -/
structure Counters where
  streamBadCells         : Word32
  controlBadCells        : Word32
  roundsAssembled        : Word32
  absentSamples          : Word32
  straySamples           : Word32
  malformedStreamCells   : Word32
  roundsLost             : Word32
  backwardRoundsRefused  : Word32
  restarts               : Word32
  liveDropped            : Word32
  relayDropped           : Word32
  eventsDropped          : Word32
  cellsTransmitted       : Word32
  windowsOpened          : Word32
  windowsRefused         : Word32
  windowsTruncated       : Word32
  windowsExtended        : Word32
  retriggersIgnored      : Word32
  windowsDiscarded       : Word32
  requestsDropped        : Word32
  malformedRequests      : Word32
  deriving DecidableEq, Repr

/-- The paths between the blocks, each in the order in which its items were sent (00_scope, Time; R7, R29, R52,
R61, R74, R135): what has been sent and not yet taken. -/
structure Paths where
  asmToStore      : List PathItem
  asmToEvaluator  : List PathItem
  storeToEngine   : List StoreNotice
  evaluatorToTable : List VerdictItem
  tableToEngine   : List EngineItem
  tableToLines    : List LineItem
  queueToEngine   : List QueueNotice
  agentToAsm      : List AssemblerStart
  agentToTable    : List TriggerNotice
  agentToLines    : List LineNotice
  agentToEngine   : List EngineNotice
  credits         : List Nat
  asmReports      : List (Option Round)
  tableAcks       : List TriggerAck
  lineAcks        : List LineAck
  engineAcks      : List EngineAck
  asmOffers       : List AssemblerOffer
  tableOffers     : List EventCell
  engineOffers    : List EngineOffer
  agentOffers     : List AgentOffer
  settings        : List QueueSettings
  deriving DecidableEq, Repr

/-- The local timer in microseconds, and whether REFCLK is present (R194). -/
structure Clock where
  localTimer : Nat
  refclk     : Bool
  deriving DecidableEq, Repr

/-- The machine. `frontOut` is the FE_COMMAND that Front Out is sending (R176); `pending` is the queue of commands
waiting to be taken, the next one first. -/
structure State where
  clock     : Clock
  asm       : Assembler
  store     : Store
  evaluator : Evaluator
  table     : TriggerTable
  engine    : Engine
  lines     : LineUnit
  egress    : Egress
  agent     : Agent
  frontOut  : Option CommandBytes
  counters  : Counters
  paths     : Paths
  pending   : List Instr
  deriving DecidableEq, Repr

/-- The one way a command stops. -/
inductive Fault
  /-- Raised by HISTORY_LOST_NOTICE when a LOST notice meets an empty ring. R31 says that this never happens and
  gives the notice no round to carry, so the command has no effect to model. Safe: the machine stops where the
  manual says no machine comes. -/
  | lostNoticeOnEmptyStore
  deriving DecidableEq, Repr

/-- Why a command has no meaning. -/
inductive Refusal
  /-- Raised by exec for a command that has no meaning yet (none is left). Safe. -/
  | notModelled (mnemonic : String)
  deriving DecidableEq, Repr

/-! ## Power-on values -/

/-- Table 3-4. -/
def resetUnit : CondUnit :=
  { state := .idle, previous := none, lastAssert := none, lastRelease := none, lastDuration := none, assertCount := 0 }

/-- Table 4-2; the current compare is C of the default entry. -/
def resetEntry : EntryLive :=
  { state := .disarmed, fireCount := 0, lastFire := none, compare := 0, forceMark := false }

/-- R183: every counter at 0. -/
def zeroCounters : Counters :=
  { streamBadCells := 0, controlBadCells := 0, roundsAssembled := 0, absentSamples := 0, straySamples := 0,
    malformedStreamCells := 0, roundsLost := 0, backwardRoundsRefused := 0, restarts := 0, liveDropped := 0,
    relayDropped := 0, eventsDropped := 0, cellsTransmitted := 0, windowsOpened := 0, windowsRefused := 0,
    windowsTruncated := 0, windowsExtended := 0, retriggersIgnored := 0, windowsDiscarded := 0,
    requestsDropped := 0, malformedRequests := 0 }

/-- Nothing has been sent. -/
def emptyPaths : Paths :=
  { asmToStore := [], asmToEvaluator := [], storeToEngine := [], evaluatorToTable := [], tableToEngine := [],
    tableToLines := [], queueToEngine := [], agentToAsm := [], agentToTable := [], agentToLines := [],
    agentToEngine := [], credits := [], asmReports := [], tableAcks := [], lineAcks := [], engineAcks := [],
    asmOffers := [], tableOffers := [], engineOffers := [], agentOffers := [], settings := [] }

/-- Table 1-2 (R3). -/
def resetAssembler : Assembler :=
  { stream := .down, assembly := none, backward := 0, modes := Vector.replicate 16 .off, silenceTimeout := 20,
    epoch := 0, pendingMark := none, silenceExpiry := none }

/-- R25. -/
def resetStore : Store := { ring := [], spanStart := none }

/-- R38, R42. -/
def resetEvaluator : Evaluator :=
  { entries := Vector.replicate 16 defaultChannel, units := Vector.replicate 16 resetUnit, epoch := 0 }

/-- R58, R59. -/
def resetTable : TriggerTable :=
  { entries := Vector.replicate 8 defaultTrigger, live := Vector.replicate 8 resetEntry, held := false,
    previousVerdict := none, epoch := 0 }

/-- Table 5-3 (R86, R89). -/
def resetEngine : Engine :=
  { windows := [], nextId := 0, held := false, frontier := none, lostFlag := false, balance := 0,
    profiles := Vector.replicate 4 defaultProfile, epoch := 0, pass := none, ackDue := none }

/-- Table 6-2 (R118, R119). -/
def resetLines : LineUnit :=
  { entries := Vector.replicate 8 defaultLine, lines := Vector.replicate 8 .inactive, held := false,
    lastStep := none, epoch := 0 }

/-- Table 7-1 (R133). -/
def resetEgress : Egress :=
  { replies := [], events := [], windows := [], relays := [], lives := [], sending := none, credits := 0,
    nextSeq := 0, waitingReply := none, liveLimit := 128, eventMask := 511 }

/-- Tables 8-3 and 9-1 (R153, R169, R186). -/
def resetAgent : Agent :=
  { fifo := [], phase := .free, nodeResetting := false, session := .closed, leasePeriod := 0, leaseExpiry := none,
    active := defaultBank, staging := defaultBank, epoch := 0, writeCount := 0, committing := false,
    markRound := .absent, engineAcked := false, linesAcked := false }

/-- The machine right after a power-on reset (R194 and the tables cited above), with no command waiting. The local
timer starts from 0 and REFCLK is present. -/
def State.reset : State :=
  { clock := { localTimer := 0, refclk := true }, asm := resetAssembler, store := resetStore,
    evaluator := resetEvaluator, table := resetTable, engine := resetEngine, lines := resetLines,
    egress := resetEgress, agent := resetAgent, frontOut := none, counters := zeroCounters, paths := emptyPaths,
    pending := [] }

end Sys2Proof.Machine
end

