-- ==== Sys2Proof/Machine/Flags.lean ====
section
/-! DEFINITION. The flags bytes of the cells (Table 10-2). -/

namespace Sys2Proof.Machine

/-- Bit `n` of a byte, set or clear. -/
def flagBit (b : Bool) (n : Nat) : Byte := if b then BitVec.ofNat 8 (2 ^ n) else 0

/-- The WIN_TAIL flags byte: SHORT_PRE 0, EXTENDED 1, TRUNCATED 2, GAP 3, STREAM_LOST 4, ABORTED 5. -/
def windowFlagsByte (f : WinFlags) : Byte :=
  flagBit f.shortPre 0 ||| flagBit f.extended 1 ||| flagBit f.truncated 2 ||| flagBit f.gap 3 |||
    flagBit f.streamLost 4 ||| flagBit f.aborted 5

/-- The EVENT flags byte: round valid 0, forced 1. -/
def eventFlagsByte (e : EventCell) : Byte := flagBit e.round.isSome 0 ||| flagBit e.forced 1

/-- A new window carries SHORT_PRE or no flag (R93). -/
def newFlags (shortPre : Bool) : WinFlags :=
  { shortPre := shortPre, extended := false, truncated := false, gap := false, streamLost := false, aborted := false }

end Sys2Proof.Machine
end

