-- ==== Sys2Proof/Machine/Operands.lean ====
section
/-! DEFINITION. The arguments of the requests: the codes of every enumerated value (Tables 8-2, 10-3 to 10-7), the
field catalogue read and written (R151, R152), and the cross-field checks of COMMIT (R160). -/

namespace Sys2Proof.Machine

/-! ## Codes -/

/-- CHANNEL mode codes (Table 8-2). -/
def modeCode : ChannelMode → Nat
  | .off => 0
  | .pass => 1
  | .gate => 2

/-- CHANNEL mode from its code. -/
def modeOf : Nat → Option ChannelMode
  | 0 => some .off
  | 1 => some .pass
  | 2 => some .gate
  | _ => none

/-- CHANNEL condition codes. -/
def conditionCode : ConditionKind → Nat
  | .never => 0
  | .above => 1
  | .below => 2
  | .outside => 3
  | .inside => 4
  | .riseStep => 5
  | .fallStep => 6

/-- CHANNEL condition from its code. -/
def conditionOf : Nat → Option ConditionKind
  | 0 => some .never
  | 1 => some .above
  | 2 => some .below
  | 3 => some .outside
  | 4 => some .inside
  | 5 => some .riseStep
  | 6 => some .fallStep
  | _ => none

/-- TRIGGER combine codes. -/
def combineCode : Combine → Nat
  | .any => 0
  | .all => 1
  | .after => 2
  | .width => 3
  | .schedule => 4

/-- TRIGGER combine from its code. -/
def combineOf : Nat → Option Combine
  | 0 => some .any
  | 1 => some .all
  | 2 => some .after
  | 3 => some .width
  | 4 => some .schedule
  | _ => none

/-- TRIGGER policy codes. -/
def policyCode : Policy → Nat
  | .single => 0
  | .repeating => 1

/-- TRIGGER policy from its code. -/
def policyOf : Nat → Option Policy
  | 0 => some .single
  | 1 => some .repeating
  | _ => none

/-- TRIGGER line action codes. -/
def lineActionCode : LineAction → Nat
  | .set => 0
  | .clear => 1
  | .toggle => 2
  | .pulse => 3

/-- TRIGGER line action from its code. -/
def lineActionOf : Nat → Option LineAction
  | 0 => some .set
  | 1 => some .clear
  | 2 => some .toggle
  | 3 => some .pulse
  | _ => none

/-- The action of a LINE request (Table 10-3): 3 and more are out of range (R191). -/
def lineCommandOf : Nat → Option LineCommand
  | 0 => some .set
  | 1 => some .clear
  | 2 => some .toggle
  | _ => none

/-- PROFILE overlap codes. -/
def overlapCode : Overlap → Nat
  | .separate => 0
  | .extend => 1
  | .ignore => 2

/-- PROFILE overlap from its code. -/
def overlapOf : Nat → Option Overlap
  | 0 => some .separate
  | 1 => some .extend
  | 2 => some .ignore
  | _ => none

/-- Yes and no, set and clear. -/
def boolCode (b : Bool) : Nat := if b then 1 else 0

/-- Yes and no from their codes. -/
def boolOf : Nat → Option Bool
  | 0 => some false
  | 1 => some true
  | _ => none

/-- Level codes: LOW 0, HIGH 1. -/
def levelCode : Level → Nat
  | .low => 0
  | .high => 1

/-- Level from its code. -/
def levelOf : Nat → Option Level
  | 0 => some .low
  | 1 => some .high
  | _ => none

/-- An index, or NONE as 255 (R152). -/
def optIndexCode {n : Nat} : Option (Fin n) → Nat
  | none => 255
  | some i => i.val

/-- A number below `n`. -/
def indexOf (n v : Nat) : Option (Fin n) := if h : v < n then some ⟨v, h⟩ else none

/-- An index below `n`, or NONE from 255; every other value is out of range. -/
def optIndexOf (n v : Nat) : Option (Option (Fin n)) :=
  if v = 255 then some none else (indexOf n v).map some

/-- An unsigned value within lo to hi. -/
def rangeOf (lo hi v : Nat) : Option Nat := if lo ≤ v ∧ v ≤ hi then some v else none

/-- A signed field (R152): the value as two's complement, within the 24-bit range. -/
def signedOf (v : Word32) : Option Sample :=
  if -8388608 ≤ v.toInt ∧ v.toInt ≤ 8388607 then some (BitVec.ofInt 24 v.toInt) else none

/-- A signed field or a sample, sign-extended (R152, R192). -/
def signedWord (x : Sample) : Word32 := x.signExtend 32

/-- A number as a 32-bit reply value. -/
def word (n : Nat) : Word32 := BitVec.ofNat 32 n

/-- Table 7-4: the event codes. -/
def eventCode : EventCode → Nat
  | .triggerFired => 1
  | .windowRefused => 2
  | .roundGap => 3
  | .streamLost => 4
  | .streamResumed => 5
  | .streamRestart => 6
  | .leaseExpired => 7
  | .creditOverflow => 8
  | .scheduleSlip => 9

/-- Bit n - 1 of the event mask enables event code n (Table 8-2). -/
def eventEnabled (mask : BitVec 9) (c : EventCode) : Bool := mask.getLsbD (eventCode c - 1)

/-- Table 10-4: the result codes. -/
def resultCode : Result → Nat
  | .ok => 0
  | .noSession => 1
  | .expired => 2
  | .inSession => 3
  | .badKind => 4
  | .badArg => 5
  | .count => 6
  | .badCfg => 7
  | .notHeld => 8

/-- Table 10-7. -/
def unitStateCode : UnitState → Nat
  | .idle => 0
  | .qualifying _ => 1
  | .active => 2

/-- Table 10-7. -/
def entryStateCode : EntryState → Nat
  | .disarmed => 0
  | .armed => 1
  | .holdoff _ => 2
  | .fired => 3

/-- Table 10-7; a position with no window reads NONE 0. -/
def windowStateCode : WindowState → Nat
  | .opened => 1
  | .draining => 2
  | .closing => 3
  | .closed => 4

/-- Table 10-7. -/
def sessionCode : Session → Nat
  | .closed => 0
  | .opened => 1
  | .expired => 2

/-! ## Request kinds (Table 10-3) -/

/-- The 14 kinds of a NODE request. -/
inductive Kind
  | openSession
  | closeSession
  | renew
  | read
  | write
  | revert
  | commit
  | arm
  | disarm
  | fire
  | line
  | clearCounters
  | nodeReset
  | credit
  deriving DecidableEq, Repr

/-- The kind of a kind byte; none for an unknown kind. -/
def kindOf (b : Byte) : Option Kind :=
  match b.toNat with
  | 0x01 => some .openSession
  | 0x02 => some .closeSession
  | 0x03 => some .renew
  | 0x04 => some .read
  | 0x05 => some .write
  | 0x06 => some .revert
  | 0x07 => some .commit
  | 0x08 => some .arm
  | 0x09 => some .disarm
  | 0x0A => some .fire
  | 0x0B => some .line
  | 0x0C => some .clearCounters
  | 0x0D => some .nodeReset
  | 0x0E => some .credit
  | _ => none

/-- The destination of a REQUEST (R170, R190): NODE 0, FRONT 1; any other byte is malformed. -/
inductive Destination
  | node
  | front
  deriving DecidableEq, Repr

/-- The destination of a destination byte. -/
def destinationOf (b : Byte) : Option Destination :=
  match b.toNat with
  | 0 => some .node
  | 1 => some .front
  | _ => none

/-- The STATE block items (Table 10-5). -/
inductive BlockItem
  | history
  | condition
  | trigger
  | window
  | line
  | egress
  | agent
  deriving DecidableEq, Repr

/-- What a READ reads (Table 10-5). -/
inductive ReadTarget
  | active
  | staging
  | block (b : BlockItem)
  | counters
  | history
  deriving DecidableEq, Repr

/-- The block item of a table byte. -/
def blockItemOf (b : Byte) : Option BlockItem :=
  match b.toNat with
  | 0 => some .history
  | 1 => some .condition
  | 2 => some .trigger
  | 3 => some .window
  | 4 => some .line
  | 5 => some .egress
  | 6 => some .agent
  | _ => none

/-- The target of a READ by its area byte and, in the STATE area, its table byte; none for an unknown area or block
item (R184). -/
def readTargetOf (area table : Byte) : Option ReadTarget :=
  match area.toNat with
  | 0 => some .active
  | 1 => some .staging
  | 2 => (blockItemOf table).map .block
  | 3 => some .counters
  | 4 => some .history
  | _ => none

/-! ## The field catalogue (Table 8-2) -/

/-- Writes one field of a CHANNEL entry; none when the field or the value is out of range. -/
def writeChannel (e : ChannelEntry) (field : Nat) (v : Word32) : Option ChannelEntry :=
  match field with
  | 0 => (modeOf v.toNat).map fun x => { e with mode := x }
  | 1 => (conditionOf v.toNat).map fun x => { e with condition := x }
  | 2 => (signedOf v).map fun x => { e with levelA := x }
  | 3 => (signedOf v).map fun x => { e with levelB := x }
  | 4 => (rangeOf 0 65535 v.toNat).map fun x => { e with hysteresis := x }
  | 5 => (rangeOf 1 255 v.toNat).map fun x => { e with qualify := x }
  | _ => none

/-- Reads one field of a CHANNEL entry. -/
def readChannel (e : ChannelEntry) (field : Nat) : Option Word32 :=
  match field with
  | 0 => some (word (modeCode e.mode))
  | 1 => some (word (conditionCode e.condition))
  | 2 => some (signedWord e.levelA)
  | 3 => some (signedWord e.levelB)
  | 4 => some (word e.hysteresis)
  | 5 => some (word e.qualify)
  | _ => none

/-- Writes one field of a TRIGGER entry. Field 4 is the width limits: min in the upper 16 bits, max in the lower. -/
def writeTrigger (e : TriggerEntry) (field : Nat) (v : Word32) : Option TriggerEntry :=
  match field with
  | 0 => (combineOf v.toNat).map fun x => { e with combine := x }
  | 1 => (rangeOf 0 65535 v.toNat).map fun x => { e with sources := BitVec.ofNat 16 x }
  | 2 => (indexOf 8 v.toNat).map fun x => { e with refEntry := x }
  | 3 => (rangeOf 1 65535 v.toNat).map fun x => { e with within := x }
  | 4 => some { e with widthMin := v.toNat / 65536, widthMax := v.toNat % 65536 }
  | 5 => some { e with compare := v }
  | 6 => (rangeOf 0 2147483647 v.toNat).map fun x => { e with interval := x }
  | 7 => (policyOf v.toNat).map fun x => { e with policy := x }
  | 8 => (rangeOf 0 65535 v.toNat).map fun x => { e with holdoff := x }
  | 9 => (boolOf v.toNat).map fun x => { e with armAtCommit := x }
  | 10 => (optIndexOf 4 v.toNat).map fun x => { e with profile := x }
  | 11 => (optIndexOf 8 v.toNat).map fun x => { e with line := x }
  | 12 => (lineActionOf v.toNat).map fun x => { e with lineAction := x }
  | 13 => (rangeOf 1 65535 v.toNat).map fun x => { e with pulseLength := x }
  | 14 => (boolOf v.toNat).map fun x => { e with event := x }
  | 15 => (rangeOf 0 255 v.toNat).map fun x => { e with chainMask := BitVec.ofNat 8 x }
  | _ => none

/-- Reads one field of a TRIGGER entry. -/
def readTrigger (e : TriggerEntry) (field : Nat) : Option Word32 :=
  match field with
  | 0 => some (word (combineCode e.combine))
  | 1 => some (word e.sources.toNat)
  | 2 => some (word e.refEntry.val)
  | 3 => some (word e.within)
  | 4 => some (word (e.widthMin * 65536 + e.widthMax))
  | 5 => some e.compare
  | 6 => some (word e.interval)
  | 7 => some (word (policyCode e.policy))
  | 8 => some (word e.holdoff)
  | 9 => some (word (boolCode e.armAtCommit))
  | 10 => some (word (optIndexCode e.profile))
  | 11 => some (word (optIndexCode e.line))
  | 12 => some (word (lineActionCode e.lineAction))
  | 13 => some (word e.pulseLength)
  | 14 => some (word (boolCode e.event))
  | 15 => some (word e.chainMask.toNat)
  | _ => none

/-- Writes one field of a PROFILE entry. -/
def writeProfile (e : Profile) (field : Nat) (v : Word32) : Option Profile :=
  match field with
  | 0 => (rangeOf 0 255 v.toNat).map fun x => { e with pre := x }
  | 1 => (rangeOf 1 4095 v.toNat).map fun x => { e with post := x }
  | 2 => (rangeOf 0 65535 v.toNat).map fun x => { e with mask := BitVec.ofNat 16 x }
  | 3 => (overlapOf v.toNat).map fun x => { e with overlap := x }
  | 4 => (rangeOf 1 16383 v.toNat).map fun x => { e with limit := x }
  | _ => none

/-- Reads one field of a PROFILE entry. -/
def readProfile (e : Profile) (field : Nat) : Option Word32 :=
  match field with
  | 0 => some (word e.pre)
  | 1 => some (word e.post)
  | 2 => some (word e.mask.toNat)
  | 3 => some (word (overlapCode e.overlap))
  | 4 => some (word e.limit)
  | _ => none

/-- Writes one field of a LINE entry. -/
def writeLine (e : LineEntry) (field : Nat) (v : Word32) : Option LineEntry :=
  match field with
  | 0 => (boolOf v.toNat).map fun x => { e with enable := x }
  | 1 => (levelOf v.toNat).map fun x => { e with idle := x }
  | _ => none

/-- Reads one field of a LINE entry. -/
def readLine (e : LineEntry) (field : Nat) : Option Word32 :=
  match field with
  | 0 => some (word (boolCode e.enable))
  | 1 => some (word (levelCode e.idle))
  | _ => none

/-- Writes one field of the SETTINGS entry. -/
def writeSettings (e : Settings) (field : Nat) (v : Word32) : Option Settings :=
  match field with
  | 0 => (rangeOf 1 255 v.toNat).map fun x => { e with silenceTimeout := x }
  | 1 => (rangeOf 16 240 v.toNat).map fun x => { e with liveLimit := x }
  | 2 => (rangeOf 0 511 v.toNat).map fun x => { e with eventMask := BitVec.ofNat 9 x }
  | _ => none

/-- Reads one field of the SETTINGS entry. -/
def readSettings (e : Settings) (field : Nat) : Option Word32 :=
  match field with
  | 0 => some (word e.silenceTimeout)
  | 1 => some (word e.liveLimit)
  | 2 => some (word e.eventMask.toNat)
  | _ => none

/-- R156, steps 1 to 4: the bank with one field written; none when the table, the index, the field or the value is
out of range. -/
def writeBank (b : Bank) (table index field : Nat) (v : Word32) : Option Bank :=
  match table with
  | 0 => (indexOf 16 index).bind fun i => (writeChannel (b.channels.get i) field v).map fun e =>
      { b with channels := b.channels.set i.val e i.isLt }
  | 1 => (indexOf 8 index).bind fun i => (writeTrigger (b.triggers.get i) field v).map fun e =>
      { b with triggers := b.triggers.set i.val e i.isLt }
  | 2 => (indexOf 4 index).bind fun i => (writeProfile (b.profiles.get i) field v).map fun e =>
      { b with profiles := b.profiles.set i.val e i.isLt }
  | 3 => (indexOf 8 index).bind fun i => (writeLine (b.lines.get i) field v).map fun e =>
      { b with lines := b.lines.set i.val e i.isLt }
  | 4 => if index = 0 then (writeSettings b.settings field v).map fun e => { b with settings := e } else none
  | _ => none

/-- R167: one field of one entry of a bank; none when the table, the index or the field is out of range. -/
def readBank (b : Bank) (table index field : Nat) : Option Word32 :=
  match table with
  | 0 => (indexOf 16 index).bind fun i => readChannel (b.channels.get i) field
  | 1 => (indexOf 8 index).bind fun i => readTrigger (b.triggers.get i) field
  | 2 => (indexOf 4 index).bind fun i => readProfile (b.profiles.get i) field
  | 3 => (indexOf 8 index).bind fun i => readLine (b.lines.get i) field
  | 4 => if index = 0 then readSettings b.settings field else none
  | _ => none

/-! ## The cross-field checks (Table 8-6) -/

/-- Checks 1 to 3 of one CHANNEL entry: the first that fails. -/
def channelFault (e : ChannelEntry) : Option Nat :=
  if (e.condition = .outside ∨ e.condition = .inside) ∧ ¬ e.levelA.toInt ≤ e.levelB.toInt then some 1
  else if e.condition = .outside ∧ ¬ 2 * (e.hysteresis : Int) ≤ e.levelB.toInt - e.levelA.toInt then some 2
  else if (e.condition = .riseStep ∨ e.condition = .fallStep) ∧ ¬ 0 ≤ e.levelA.toInt then some 3
  else none

/-- Checks 4 and 5 of TRIGGER entry `i`. -/
def triggerFault (i : Fin 8) (e : TriggerEntry) : Option Nat :=
  if e.combine = .after ∧ e.refEntry = i then some 4
  else if e.combine = .width ∧ ¬ e.widthMin ≤ e.widthMax then some 5
  else none

/-- Check 6 of one PROFILE entry. -/
def profileFault (e : Profile) : Option Nat :=
  if e.pre + e.post + 1 ≤ e.limit then none else some 6

/-- R160: the first failing check of a bank, with its table and index, in the order CHANNEL, TRIGGER, PROFILE and
ascending index; none when every check passes. -/
def firstFault (b : Bank) : Option (Nat × Nat × Nat) :=
  ((List.finRange 16).findSome? fun i => (channelFault (b.channels.get i)).map fun k => (k, 0, i.val)) <|>
  ((List.finRange 8).findSome? fun i => (triggerFault i (b.triggers.get i)).map fun k => (k, 1, i.val)) <|>
  ((List.finRange 4).findSome? fun i => (profileFault (b.profiles.get i)).map fun k => (k, 2, i.val))

end Sys2Proof.Machine
end

