-- ==== Sys2Proof/Machine/Lanes.lean ====
section
/-! DEFINITION. The lanes: the check (R187), what a receiving lane does with a cell (R188), and the layout of every
cell (R190). A cell is a bit vector with byte 0 the most significant, so multi-byte fields stand most significant
byte first, as they are sent. -/

namespace Sys2Proof.Machine

/-! ## The check -/

/-- One bit of the CRC-16: polynomial 0x1021, most significant bit first. -/
def crcBit (crc : BitVec 16) (b : Bool) : BitVec 16 :=
  if crc.msb != b then (crc <<< 1) ^^^ 0x1021#16 else crc <<< 1

/-- One byte of the CRC-16, most significant bit first. -/
def crcByte (crc : BitVec 16) (b : Byte) : BitVec 16 :=
  [7, 6, 5, 4, 3, 2, 1, 0].foldl (fun c n => crcBit c (b.getLsbD n)) crc

/-- R187: the CRC-16 of a run of bytes, initial value 0xFFFF, no final inversion. -/
def crc16 (bs : List Byte) : BitVec 16 := bs.foldl crcByte 0xFFFF#16

/-- Byte `i` of bytes 0 to 21. -/
def headByte (h : CellHead) (i : Nat) : Byte := h.extractLsb' (8 * (21 - i)) 8

/-- Bytes 0 to 21 in the order they are sent. -/
def headBytes (h : CellHead) : List Byte := (List.range 22).map (headByte h)

/-- R187: the cell with its check in bytes 22 and 23. -/
def sealCell (h : CellHead) : RawCell := h ++ crc16 (headBytes h)

/-- Bytes 0 to 21 of a cell. -/
def cellHead (c : RawCell) : CellHead := c.extractLsb' 16 176

/-- R187: a received cell passes its check. -/
def passesCheck (c : RawCell) : Bool := crc16 (headBytes (cellHead c)) == c.extractLsb' 0 16

/-- R188: the kinds valid on a receiving lane. -/
def validKind (lane : Lane) (kind : Byte) : Bool :=
  match lane with
  | .streamIn => kind == 0x01#8 || kind == 0x02#8 || kind == 0x03#8
  | .controlIn => kind == 0x10#8

/-- R188: the lane's judgement of what it received; `none` is a cell that was not received whole (R187). -/
def laneAccepts (lane : Lane) (cell : Option RawCell) : Bool :=
  match cell with
  | none => false
  | some c => passesCheck c && validKind lane (headByte (cellHead c) 0)

/-! ## Layouts of the received cells (Table 10-1) -/

/-- ROUND: round number, declared mask, and fifteen bytes that are ignored. -/
def roundHead (n : Round) (declared : ChannelMask) (ignored : BitVec 120) : CellHead :=
  0x01#8 ++ n ++ declared ++ ignored

/-- SAMPLE: channel, round low byte, value, and sixteen bytes that are ignored. -/
def sampleHead (channel low : Byte) (value : Sample) (ignored : BitVec 128) : CellHead :=
  0x02#8 ++ channel ++ low ++ value ++ ignored

/-- FE_REPLY: nineteen relayed bytes, and two that are ignored (R19). -/
def feReplyHead (body : RelayBytes) (ignored : BitVec 16) : CellHead := 0x03#8 ++ body ++ ignored

/-- REQUEST. -/
def requestHead (q : Request) : CellHead :=
  0x10#8 ++ q.dest ++ q.tag ++ q.kind ++ q.area ++ q.table ++ q.index ++ q.field ++ q.value ++ q.rest

/-- The fields of a REQUEST (R191). -/
def requestOf (h : CellHead) : Request :=
  { dest := headByte h 1, tag := headByte h 2, kind := headByte h 3, area := headByte h 4, table := headByte h 5,
    index := headByte h 6, field := headByte h 7, value := h.extractLsb' 80 32, rest := h.extractLsb' 0 80 }

/-- The command that a received cell is: the lane discards it, or hands it to its block whole (R4, R188). -/
def laneCommand (dt : Nat) (lane : Lane) (cell : Option RawCell) : Instr :=
  match lane, cell with
  | lane, none => .laneCellDiscard dt lane none
  | lane, some c =>
    if laneAccepts lane (some c) then
      let h := cellHead c
      match lane with
      | .controlIn => .requestArrival dt (requestOf h)
      | .streamIn =>
        if headByte h 0 = 0x01#8 then .roundCell dt (h.extractLsb' 136 32) (h.extractLsb' 120 16)
        else if headByte h 0 = 0x02#8 then
          .sampleCell dt (headByte h 1) (headByte h 2) (h.extractLsb' 128 24)
        else .feReplyRelay dt (h.extractLsb' 16 152)
    else .laneCellDiscard dt lane (some c)

/-! ## Layouts of the transmitted cells -/

/-- R176: bytes 2 to 21 of a REQUEST. -/
def commandBytes (q : Request) : CommandBytes :=
  q.tag ++ q.kind ++ q.area ++ q.table ++ q.index ++ q.field ++ q.value ++ q.rest

/-- FE_COMMAND: bytes 2 to 21 of the REQUEST and one zero byte (R176). -/
def feCommandHead (body : CommandBytes) : CellHead := 0x11#8 ++ body ++ 0#8

/-- The bytes of an FE_COMMAND on Front Out (R189). -/
def feCommandCell (body : CommandBytes) : RawCell := sealCell (feCommandHead body)

/-- A channel, entry, profile or line index as a byte. -/
def indexByte {n : Nat} (i : Fin n) : Byte := BitVec.ofNat 8 i.val

/-- LIVE. -/
def liveHead (seq : BitVec 16) (c : LiveCell) : CellHead :=
  0x20#8 ++ seq ++ indexByte c.channel ++ c.round ++ c.value ++ 0#88

/-- WIN_HEAD. -/
def winHeadHead (seq : BitVec 16) (c : WinHead) : CellHead :=
  0x21#8 ++ seq ++ c.id ++ indexByte c.entry ++ indexByte c.profile ++ c.trigger ++ c.first ++ c.last ++ c.mask ++ 0#8

/-- WIN_SAMPLE. -/
def winSampleHead (seq : BitVec 16) (c : WinSample) : CellHead :=
  0x22#8 ++ seq ++ c.id ++ c.round ++ indexByte c.channel ++ c.value ++ BitVec.ofNat 8 (boolCode c.complete) ++ 0#64

/-- WIN_TAIL. -/
def winTailHead (seq : BitVec 16) (c : WinTail) : CellHead :=
  0x23#8 ++ seq ++ c.id ++ c.last ++ BitVec.ofNat 16 c.emitted ++ BitVec.ofNat 32 c.cells ++ BitVec.ofNat 16 c.lost ++
    windowFlagsByte c.flags ++ 0#32

/-- EVENT; the round field is 0 when "round valid" is clear (R147). -/
def eventHead (seq : BitVec 16) (c : EventCell) : CellHead :=
  0x24#8 ++ seq ++ BitVec.ofNat 8 (eventCode c.code) ++ c.round.getD 0 ++ c.a ++ c.b ++ eventFlagsByte c ++ 0#40

/-- REPLY. -/
def replyHead (seq : BitVec 16) (c : ReplyCell) : CellHead :=
  0x25#8 ++ seq ++ c.tag ++ c.kind ++ BitVec.ofNat 8 (resultCode c.result) ++ c.value ++ c.aux ++ 0#64

/-- RELAY. -/
def relayHead (seq : BitVec 16) (body : RelayBytes) : CellHead := 0x26#8 ++ seq ++ body

/-- Bytes 0 to 21 of a cell of Egress Out, with its sequence number. -/
def egressHead (seq : BitVec 16) : EgressCell → CellHead
  | .live c => liveHead seq c
  | .window (.head c) => winHeadHead seq c
  | .window (.sample c) => winSampleHead seq c
  | .window (.tail c) => winTailHead seq c
  | .event c => eventHead seq c
  | .reply c => replyHead seq c
  | .relay c => relayHead seq c

/-- R189: the bytes of the cell in transmission, its check computed after the sequence field is written. -/
def egressCell (x : Sending) : RawCell := sealCell (egressHead x.seq x.cell)

/-- The sequence field of an egress cell, body bytes 1 and 2. -/
def seqField (c : RawCell) : BitVec 16 := (cellHead c).extractLsb' 152 16

end Sys2Proof.Machine
end

