-- ==== Sys2Proof/Machine/Rounds.lean ====
section
/-! DEFINITION. Round arithmetic (R1, R2), used by every block. -/

namespace Sys2Proof.Machine

/-- R1: the forward distance from round `a` to round `b`. -/
def distance (a b : Round) : Nat := (b - a).toNat

/-- R1: round `b` is after round `a`. -/
def isAfter (b a : Round) : Bool :=
  decide (1 ≤ distance a b) && decide (distance a b ≤ Config.halfCircle)

/-- R1: round `b` is at or after round `a`. -/
def atOrAfter (b a : Round) : Bool := decide (distance a b = 0) || isAfter b a

/-- R1: the later of `a` and `b` (for an unordered pair: `a`). -/
def later (a b : Round) : Round := if atOrAfter b a then b else a

/-- R1: the earlier of `a` and `b` (for an unordered pair: `b`). -/
def earlier (a b : Round) : Round := if atOrAfter b a then a else b

/-- R1: the round `n` rounds after `r`. -/
def roundsAfter (r : Round) (n : Nat) : Round := r + BitVec.ofNat 32 n

/-- The round `n` rounds before `r`. -/
def roundsBefore (r : Round) (n : Nat) : Round := r - BitVec.ofNat 32 n

/-- R2: the compare value `c` is crossed by the step from `p` to `q`. -/
def crossed (c p q : Round) : Bool :=
  decide (1 ≤ distance p c) && decide (distance p c ≤ distance p q)

/-- How far `c` lies behind `r`: the forward distance from `c` to `r`. R69 adds the interval `i` to the compare `c`
while it is not after `r`; the number of additions is this closed form
(Laws/Rounds.lean, `scheduleAdditions_spec`, proves it is what the adding does). -/
def scheduleAdditions (c r : Round) (i : Nat) : Nat :=
  if isAfter c r then 0 else distance c r / i + 1

end Sys2Proof.Machine
end

