-- ==== Sys2Proof/Machine/Ops.lean ====
section
/-! DEFINITION. The named operations every block uses: counters, the local timer, channel and entry sets, the paths,
what a bank holds, and the admission of offers by the Egress Queue. -/

namespace Sys2Proof.Machine

/-! ## Counters, sets, indexes -/

/-- R183: a counter rises by `k` and stops at 2^32 - 1. -/
def raise (c : Word32) (k : Nat) : Word32 := BitVec.ofNat 32 (min (c.toNat + k) Config.counterLimit)

/-- R48, R68, R157: a saturating 16-bit count rises by one. -/
def raiseCount (n : Nat) : Nat := min (n + 1) Config.countLimit

/-- The channels of a mask, in ascending order. -/
def channelsOf (m : ChannelMask) : List (Fin 16) := (List.finRange 16).filter fun i => m.getLsbD i.val

/-- The mask of the channels that satisfy `p`. -/
def maskOf (p : Fin 16 → Bool) : ChannelMask :=
  (List.finRange 16).foldl (fun m i => if p i then m ||| BitVec.ofNat 16 (2 ^ i.val) else m) 0

/-- Channel `i` is in the mask. -/
def hasChannel (m : ChannelMask) (i : Fin 16) : Bool := m.getLsbD i.val

/-- Two sets of channels have a member in common (00_scope, Conventions). -/
def meets (a b : ChannelMask) : Bool := a &&& b != 0

/-- Entry `i` is in the entry mask. -/
def hasEntry (m : EntryMask) (i : Fin 8) : Bool := m.getLsbD i.val

/-- How many declared channels were not received (R6). -/
def missingCount (declared received : ChannelMask) : Nat := (channelsOf (declared &&& ~~~received)).length

/-- The present mask of a record (R5): the channels that hold a value. -/
def presentMask (r : Record) : ChannelMask := maskOf fun i => (r.values.get i).isSome

/-- A round that a block reports to the Agent, as the reply carries it: 0xFFFFFFFF for none (R192). -/
def roundOrNone (r : Option Round) : Word32 := r.getD 0xFFFFFFFF#32

/-! ## The local timer (R194) -/

/-- The running timers: the silence timer and the lease timer. -/
def runningExpiries (s : State) : List Nat := s.asm.silenceExpiry.toList ++ s.agent.leaseExpiry.toList

/-- The local timer after `dt` microseconds. It does not run past an expiry that has not been taken: the expiry is
due at that moment, and taking it is a command (notes/assumptions/3). It never runs backward. -/
def timerAfter (s : State) (dt : Nat) : Nat :=
  max s.clock.localTimer ((runningExpiries s).foldl min (s.clock.localTimer + dt))

/-- Time passes: nothing while REFCLK is lost. -/
def elapse (s : State) (dt : Nat) : State :=
  if s.clock.refclk then { s with clock := { s.clock with localTimer := timerAfter s dt } } else s

/-- A timer with expiry `e` can expire now: REFCLK is present, and no running timer expires before it unless the
local timer has already reached `e`. -/
def canExpire (s : State) (e : Nat) : Bool :=
  s.clock.refclk && (decide (e ≤ s.clock.localTimer) || (runningExpiries s).all fun x => decide (e ≤ x))

/-- The local timer reaches the expiry `e`. -/
def reach (s : State) (e : Nat) : State :=
  { s with clock := { s.clock with localTimer := max s.clock.localTimer e } }

/-- The expiry `ms` milliseconds from now. -/
def expiryIn (s : State) (ms : Nat) : Nat := s.clock.localTimer + ms * Config.microsPerMilli

/-! ## Paths -/

/-- R7: the Round Assembler places an item on both of its paths. -/
def toBothPaths (s : State) (x : PathItem) : State :=
  { s with paths := { s.paths with
      asmToStore := s.paths.asmToStore ++ [x], asmToEvaluator := s.paths.asmToEvaluator ++ [x] } }

/-- The Round Assembler offers a cell to the Egress Queue. -/
def asmOffer (s : State) (x : AssemblerOffer) : State :=
  { s with paths := { s.paths with asmOffers := s.paths.asmOffers ++ [x] } }

/-- The Round Assembler offers an event; "forced" is clear on each (R18). -/
def asmEvent (s : State) (code : EventCode) (round : Round) (a b : Word32) : State :=
  asmOffer s (.event { code := code, round := some round, a := a, b := b, forced := false })

/-- The History Store sends notices to the Window Engine (R29). -/
def storeNotices (s : State) (xs : List StoreNotice) : State :=
  { s with paths := { s.paths with storeToEngine := s.paths.storeToEngine ++ xs } }

/-- The Condition Evaluator places an item on its path to the Trigger Table (R52). -/
def toTable (s : State) (x : VerdictItem) : State :=
  { s with paths := { s.paths with evaluatorToTable := s.paths.evaluatorToTable ++ [x] } }

/-- The Trigger Table places items on its path to the Window Engine. -/
def toEngine (s : State) (xs : List EngineItem) : State :=
  { s with paths := { s.paths with tableToEngine := s.paths.tableToEngine ++ xs } }

/-- The Trigger Table places an item on its path to the Output Line Unit. -/
def toLines (s : State) (x : LineItem) : State :=
  { s with paths := { s.paths with tableToLines := s.paths.tableToLines ++ [x] } }

/-- The Window Engine offers a cell or a group to the Egress Queue. -/
def engineOffer (s : State) (x : EngineOffer) : State :=
  { s with paths := { s.paths with engineOffers := s.paths.engineOffers ++ [x] } }

/-- The Window Engine acknowledges to the Agent, at the end of the event (R101, notes/assumptions/24, DEDUCED). -/
def engineAck (s : State) (x : EngineAck) : State := { s with engine := { s.engine with ackDue := some x } }

/-- The Output Line Unit acknowledges to the Agent. -/
def lineAck (s : State) (x : LineAck) : State :=
  { s with paths := { s.paths with lineAcks := s.paths.lineAcks ++ [x] } }

/-- The Trigger Table acknowledges to the Agent. -/
def tableAck (s : State) (x : TriggerAck) : State :=
  { s with paths := { s.paths with tableAcks := s.paths.tableAcks ++ [x] } }

/-- The Agent sends the Trigger Table a direct notice. -/
def noticeToTable (s : State) (x : TriggerNotice) : State :=
  { s with paths := { s.paths with agentToTable := s.paths.agentToTable ++ [x] } }

/-- The Agent sends the Output Line Unit a direct notice. -/
def noticeToLines (s : State) (x : LineNotice) : State :=
  { s with paths := { s.paths with agentToLines := s.paths.agentToLines ++ [x] } }

/-- The Agent sends the Window Engine a direct notice. -/
def noticeToEngine (s : State) (x : EngineNotice) : State :=
  { s with paths := { s.paths with agentToEngine := s.paths.agentToEngine ++ [x] } }

/-- The Agent sends the Round Assembler a commit start or a node-reset start. -/
def startAssembler (s : State) (x : AssemblerStart) : State :=
  { s with paths := { s.paths with agentToAsm := s.paths.agentToAsm ++ [x] } }

/-- The Agent offers a cell to the Egress Queue. -/
def agentOffer (s : State) (x : AgentOffer) : State :=
  { s with paths := { s.paths with agentOffers := s.paths.agentOffers ++ [x] } }

/-- The Agent gives the Egress Queue settings, by a direct notice. -/
def settingsToQueue (s : State) (x : QueueSettings) : State :=
  { s with paths := { s.paths with settings := s.paths.settings ++ [x] } }

/-! ## The Egress Queue's admission (R134 to R140) -/

/-- R133: the occupancy O. -/
def occupancy (q : Egress) : Nat :=
  q.replies.length + q.events.length + q.windows.length + q.relays.length + q.lives.length

/-- The occupancy as another block reads it (R101, R105). -/
def occupancyOf (s : State) : Nat := occupancy s.egress

/-- R139: the Egress Queue takes an EVENT offer. -/
def admitEvent (s : State) (e : EventCell) : State :=
  if eventEnabled s.egress.eventMask e.code then
    if occupancy s.egress < Config.reserveLimit then
      { s with egress := { s.egress with events := s.egress.events ++ [e] } }
    else { s with counters := { s.counters with eventsDropped := raise s.counters.eventsDropped 1 } }
  else s

/-- Cells join the WINDOW FIFO (R138). -/
def admitWindow (s : State) (cs : List WindowCell) : State :=
  { s with egress := { s.egress with windows := s.egress.windows ++ cs } }

/-- R172: the service of the head request ends: it leaves the FIFO and the phase becomes FREE. -/
def endService (s : State) : State :=
  { s with agent := { s.agent with fifo := s.agent.fifo.tail, phase := .free } }

/-- A reply joins the REPLY FIFO and the Agent is told, which ends that request's service (R140, R172). -/
def admitReply (s : State) (c : ReplyCell) : State :=
  endService { s with egress := { s.egress with replies := s.egress.replies ++ [c] } }

end Sys2Proof.Machine
end

