-- ==== Sys2Proof/Machine/Power.lean ====
section
/-! DEFINITION. The reset pin, the reference clock and the receiving lanes' discards (R187, R188, R194). -/

namespace Sys2Proof.Machine

/-- R194: RESET_N low and released. Every block is at its power-on values, the local timer starts from 0. REFCLK is an
input, so the reset does not restore it, and the queue of waiting commands is not part of the chip. -/
def powerOnReset (s : State) : State :=
  { State.reset with clock := { localTimer := 0, refclk := s.clock.refclk }, pending := s.pending }

/-- POWER_ON_RESET (R194). -/
def execPowerOnReset (s : State) : Host.Outcome State Fault Refusal := .next (powerOnReset s)

/-- REFCLK_LOSS (R194): the local timer and the lanes stop. -/
def execRefclkLoss (s : State) : Host.Outcome State Fault Refusal :=
  .next { s with clock := { s.clock with refclk := false } }

/-- REFCLK_RETURN (R194): the local timer and the lanes go on from where they stopped. -/
def execRefclkReturn (s : State) : Host.Outcome State Fault Refusal :=
  .next { s with clock := { s.clock with refclk := true } }

/-- R188: the lane's bad cell counter rises by one. -/
def countBadCell (s : State) (lane : Lane) : State :=
  match lane with
  | .streamIn => { s with counters := { s.counters with streamBadCells := raise s.counters.streamBadCells 1 } }
  | .controlIn => { s with counters := { s.counters with controlBadCells := raise s.counters.controlBadCells 1 } }

/-- A cell comes in on a lane after `dt`: with REFCLK lost the lanes are stopped and nothing comes in (R194). -/
def onLane (s : State) (dt : Nat) (f : State → State) : State :=
  if s.clock.refclk then f (elapse s dt) else s

/-- R188: a received cell that the lane does not accept is discarded and counted. -/
def discardCell (lane : Lane) (cell : Option RawCell) (s : State) : State :=
  if laneAccepts lane cell then s else countBadCell s lane

/-- LANE_CELL_DISCARD (R187, R188). A cell that the lane accepts is not discarded (WellFormed.lean excludes it). -/
def execLaneCellDiscard (dt : Nat) (lane : Lane) (cell : Option RawCell) (s : State) : Host.Outcome State Fault Refusal :=
  .next (onLane s dt (discardCell lane cell))

end Sys2Proof.Machine
end

