-- ==== Sys2Proof/Machine/Assembler.lean ====
section
/-! DEFINITION. The Round Assembler (Chapter 1). -/

namespace Sys2Proof.Machine

/-- The last round: absent in DOWN (Table 1-2). -/
def lastRound (s : State) : Option Round :=
  match s.asm.stream with
  | .down => none
  | .running r => some r
  | .lost r => some r

/-- R5: the record of a round that closes. -/
def recordOf (a : InAssembly) (complete : Bool) : Record :=
  { round := a.round, epoch := a.epoch, values := a.kept, complete := complete, gapBefore := a.gapBefore,
    spanStart := a.spanStart }

/-- R20, R21: the mark goes on both paths, the Assembler adopts the modes, the silence timeout and the epoch, and
reports the last round to the Agent. -/
def insertMark (s : State) (e : Epoch) : State :=
  let t := toBothPaths s (.mark e)
  { t with
    asm := { t.asm with
      modes := Vector.ofFn fun i => (s.agent.staging.channels.get i).mode
      silenceTimeout := s.agent.staging.settings.silenceTimeout
      epoch := e
      pendingMark := none }
    paths := { t.paths with asmReports := t.paths.asmReports ++ [lastRound s] } }

/-- A mark that waited for the round in assembly is inserted once that round has closed (R20). -/
def insertPending (s : State) : State :=
  match s.asm.pendingMark with
  | none => s
  | some e => insertMark s e

/-- R6, R7: the round in assembly closes, by completion or incomplete, and its record is delivered; a mark that
waited for it follows. -/
def closeRound (s : State) (a : InAssembly) (complete : Bool) : State :=
  let t := toBothPaths s (.record (recordOf a complete))
  insertPending { t with
    asm := { t.asm with assembly := none }
    counters := { t.counters with
      roundsAssembled := raise t.counters.roundsAssembled 1
      absentSamples :=
        if complete then t.counters.absentSamples
        else raise t.counters.absentSamples (missingCount a.declared a.received) } }

/-- Closing by supersession or silence: a round in assembly, if there is one (R6). -/
def closeIncomplete (s : State) : State :=
  match s.asm.assembly with
  | none => s
  | some a => closeRound s a false

/-- The round in assembly that an accepted ROUND cell opens (R8). -/
def openedRound (s : State) (n : Round) (declared : ChannelMask) (gap : Nat) (spanStart : Bool) : InAssembly :=
  { round := n, declared := declared, received := 0, epoch := s.asm.epoch, gapBefore := gap, spanStart := spanStart,
    kept := Vector.replicate 16 none }

/-- R8: a ROUND cell is accepted. With an empty declared mask the round completes at once (R15). -/
def acceptRound (s : State) (n : Round) (declared : ChannelMask) (gap : Nat) (spanStart : Bool) : State :=
  let a := openedRound s n declared gap spanStart
  let t := { s with asm := { s.asm with
    stream := .running n
    backward := 0
    silenceExpiry := some (expiryIn s s.asm.silenceTimeout)
    assembly := some a } }
  if declared = 0 then closeRound t a true else t

/-- R12, R13: a ROUND cell is accepted as a restart; `old` is the old last round. -/
def restartRound (s : State) (old n : Round) (declared : ChannelMask) : State :=
  let t := toBothPaths s .restart
  let u := { t with counters := { t.counters with restarts := raise t.counters.restarts 1 } }
  acceptRound (asmEvent u .streamRestart n n old) n declared 0 true

/-- R10, R13: the round numbers skipped are counted as lost. -/
def countLost (s : State) (k : Nat) : State :=
  { s with counters := { s.counters with roundsLost := raise s.counters.roundsLost k } }

/-- R10: a forward ROUND cell in RUNNING, at forward distance `d` from the last round. -/
def forwardRound (s : State) (last n : Round) (declared : ChannelMask) (d : Nat) : State :=
  if d = 1 then acceptRound s n declared 0 false
  else acceptRound (asmEvent (countLost s (d - 1)) .roundGap n (roundsAfter last 1) (word (d - 1))) n declared (d - 1) false

/-- R11: a backward ROUND cell in RUNNING is refused. -/
def refuseRound (s : State) : State :=
  { s with
    asm := { s.asm with backward := s.asm.backward + 1 }
    counters := { s.counters with backwardRoundsRefused := raise s.counters.backwardRoundsRefused 1 } }

/-- R13: a forward ROUND cell in LOST is accepted as a resume. -/
def resumeRound (s : State) (n : Round) (declared : ChannelMask) (d : Nat) : State :=
  acceptRound (asmEvent (countLost s (d - 1)) .streamResumed n n (word (d - 1))) n declared (d - 1) false

/-- R9 to R13: a ROUND cell is judged against the stream state and the last round. -/
def judgeRound (s : State) (n : Round) (declared : ChannelMask) : State :=
  match s.asm.stream with
  | .down => acceptRound s n declared 0 true
  | .running last =>
    if isAfter n last then forwardRound s last n declared (distance last n)
    else if s.asm.backward < 2 then refuseRound s
    else restartRound s last n declared
  | .lost last =>
    if isAfter n last then resumeRound s n declared (distance last n)
    else restartRound s last n declared

/-- ROUND_CELL (R4 to R13): supersession, then judgement. -/
def execRoundCell (dt : Nat) (number : Round) (declared : ChannelMask) (s : State) : Host.Outcome State Fault Refusal :=
  .next (onLane s dt fun t => judgeRound (closeIncomplete t) number declared)

/-- R14: a SAMPLE cell with no round in assembly. -/
def straySample (s : State) : State :=
  { s with counters := { s.counters with straySamples := raise s.counters.straySamples 1 } }

/-- R14: a SAMPLE cell that does not match the round in assembly. -/
def malformedSample (s : State) : State :=
  { s with counters := { s.counters with malformedStreamCells := raise s.counters.malformedStreamCells 1 } }

/-- R15, R16: a SAMPLE cell that passed its checks is taken. -/
def takeSample (s : State) (a : InAssembly) (ch : Fin 16) (value : Sample) : State :=
  let kept := match s.asm.modes.get ch with
    | .off => a.kept
    | .pass => a.kept.set ch.val (some value) ch.isLt
    | .gate => a.kept.set ch.val (some value) ch.isLt
  let b := { a with received := a.received ||| BitVec.ofNat 16 (2 ^ ch.val), kept := kept }
  let t := { s with asm := { s.asm with assembly := some b } }
  let u := match s.asm.modes.get ch with
    | .pass => asmOffer t (.live { channel := ch, round := a.round, value := value })
    | .off => t
    | .gate => t
  if b.declared &&& ~~~b.received = 0 then closeRound u b true else u

/-- R14: the checks of a SAMPLE cell, then R15. -/
def sampleTaken (s : State) (channel low : Byte) (value : Sample) : State :=
  match s.asm.assembly with
  | none => straySample s
  | some a =>
    match indexOf 16 channel.toNat with
    | none => malformedSample s
    | some ch =>
      if hasChannel a.declared ch && !hasChannel a.received ch && low == a.round.extractLsb' 0 8 then
        takeSample s a ch value
      else malformedSample s

/-- SAMPLE_CELL (R14, R15). -/
def execSampleCell (dt : Nat) (channel low : Byte) (value : Sample) (s : State) : Host.Outcome State Fault Refusal :=
  .next (onLane s dt fun t => sampleTaken t channel low value)

/-- FE_REPLY_RELAY (R19). -/
def execFeReplyRelay (dt : Nat) (body : RelayBytes) (s : State) : Host.Outcome State Fault Refusal :=
  .next (onLane s dt fun t => asmOffer t (.relay body))

/-- R17: the silence timer expires in RUNNING. -/
def streamFallsSilent (s : State) : State :=
  let t := closeIncomplete s
  match s.asm.stream with
  | .running last =>
    let u := { t with asm := { t.asm with stream := .lost last, silenceExpiry := none } }
    asmEvent (toBothPaths u .lost) .streamLost last last 0
  | .down => s
  | .lost _ => s

/-- SILENCE_EXPIRY (R17): the local timer reaches the expiry. A stopped timer, or one that another timer's expiry
precedes, does not expire. -/
def silenceExpires (s : State) : State :=
  match s.asm.silenceExpiry with
  | none => s
  | some e => if canExpire s e then streamFallsSilent (reach s e) else s

/-- SILENCE_EXPIRY (R17). -/
def execSilenceExpiry (s : State) : Host.Outcome State Fault Refusal := .next (silenceExpires s)

/-- COMMIT_START (R20): the mark goes in at once, or waits for the round in assembly to close. -/
def takeCommitStart (s : State) : State :=
  match s.paths.agentToAsm with
  | .commit e :: rest =>
    let t := { s with paths := { s.paths with agentToAsm := rest } }
    match s.asm.assembly with
    | none => insertMark t e
    | some _ => { t with asm := { t.asm with pendingMark := some e } }
  | _ => s

/-- COMMIT_START (R20). -/
def execCommitStart (s : State) : Host.Outcome State Fault Refusal := .next (takeCommitStart s)

/-- NODE_RESET_START (R22): the round in assembly is discarded and the node-reset notice placed on both paths. -/
def takeNodeResetStart (s : State) : State :=
  match s.paths.agentToAsm with
  | .nodeReset :: rest =>
    toBothPaths { s with
      asm := { s.asm with stream := .down, assembly := none, backward := 0, pendingMark := none, silenceExpiry := none }
      paths := { s.paths with agentToAsm := rest } } .nodeReset
  | _ => s

/-- NODE_RESET_START (R22). -/
def execNodeResetStart (s : State) : Host.Outcome State Fault Refusal := .next (takeNodeResetStart s)

end Sys2Proof.Machine
end

