-- ==== Sys2Proof/Machine/Egress.lean ====
section
/-! DEFINITION. The Egress Queue (Chapter 7), but for its answers to the Window Engine's offers, which stand beside
the service pass (Service.lean). -/

namespace Sys2Proof.Machine

/-! ## Offers -/

/-- The Egress Queue has taken the front of the Assembler's offers. -/
def queueTakesAsm (s : State) (rest : List AssemblerOffer) : State :=
  { s with paths := { s.paths with asmOffers := rest } }

/-- The Egress Queue has taken the front of the Agent's offers. -/
def queueTakesAgent (s : State) (rest : List AgentOffer) : State :=
  { s with paths := { s.paths with agentOffers := rest } }

/-- The Egress Queue has taken the front of the Window Engine's offers. -/
def queueTakesEvent (s : State) (rest : List EngineOffer) : State :=
  { s with paths := { s.paths with engineOffers := rest } }

/-- The Egress Queue has taken the front of the Trigger Table's offers. -/
def queueTakesTable (s : State) (rest : List EventCell) : State :=
  { s with paths := { s.paths with tableOffers := rest } }

/-- R136: a LIVE cell is admitted below the live limit, or dropped and counted. -/
def admitLive (s : State) (c : LiveCell) : State :=
  if occupancy s.egress < s.egress.liveLimit then
    { s with egress := { s.egress with lives := s.egress.lives ++ [c] } }
  else { s with counters := { s.counters with liveDropped := raise s.counters.liveDropped 1 } }

/-- LIVE_OFFER (R136). -/
def takeLiveOffer (s : State) : State :=
  match s.paths.asmOffers with
  | .live c :: rest => admitLive (queueTakesAsm s rest) c
  | _ => s

/-- LIVE_OFFER (R136). -/
def execLiveOffer (s : State) : Host.Outcome State Fault Refusal := .next (takeLiveOffer s)

/-- R137: a RELAY cell is admitted below 240, or dropped and counted. -/
def admitRelay (s : State) (c : RelayBytes) : State :=
  if occupancy s.egress < Config.dataLimit then
    { s with egress := { s.egress with relays := s.egress.relays ++ [c] } }
  else { s with counters := { s.counters with relayDropped := raise s.counters.relayDropped 1 } }

/-- RELAY_OFFER (R137). -/
def takeRelayOffer (s : State) : State :=
  match s.paths.asmOffers with
  | .relay c :: rest => admitRelay (queueTakesAsm s rest) c
  | _ => s

/-- RELAY_OFFER (R137). -/
def execRelayOffer (s : State) : Host.Outcome State Fault Refusal := .next (takeRelayOffer s)

/-- EVENT_OFFER (R135, R139): the front of the source's offers, where it is an event. -/
def takeEventOffer (source : EventSource) (s : State) : State :=
  match source with
  | .assembler =>
    match s.paths.asmOffers with
    | .event e :: rest => admitEvent (queueTakesAsm s rest) e
    | _ => s
  | .triggerTable =>
    match s.paths.tableOffers with
    | e :: rest => admitEvent (queueTakesTable s rest) e
    | [] => s
  | .windowEngine =>
    match s.paths.engineOffers with
    | .event e :: rest => admitEvent (queueTakesEvent s rest) e
    | _ => s
  | .agent =>
    match s.paths.agentOffers with
    | .event e :: rest => admitEvent (queueTakesAgent s rest) e
    | _ => s

/-- EVENT_OFFER (R139). -/
def execEventOffer (source : EventSource) (s : State) : Host.Outcome State Fault Refusal :=
  .next (takeEventOffer source s)

/-- R140: a REPLY is admitted below 250, or becomes the waiting reply. -/
def offerReply (s : State) (c : ReplyCell) : State :=
  if occupancy s.egress < Config.reserveLimit then admitReply s c
  else { s with egress := { s.egress with waitingReply := some c } }

/-- REPLY_OFFER (R140). There is at most one waiting reply, so no offer is taken while one waits. The reply of a COMMIT
follows the adoption of its settings (R164; notes/assumptions/6, DEDUCED). -/
def takeReplyOffer (s : State) : State :=
  match s.egress.waitingReply, s.paths.settings, s.paths.agentOffers with
  | none, [], .reply c :: rest => offerReply (queueTakesAgent s rest) c
  | _, _, _ => s

/-- REPLY_OFFER (R140). -/
def execReplyOffer (s : State) : Host.Outcome State Fault Refusal := .next (takeReplyOffer s)

/-! ## Transmission -/

/-- R141: the cell the arbiter chooses, and the queue without it: the oldest cell of the highest class that is not
empty, in the order REPLY, EVENT, WINDOW, RELAY, LIVE. -/
def chooseCell (q : Egress) : Option (EgressCell × Egress) :=
  match q.replies, q.events, q.windows, q.relays, q.lives with
  | c :: cs, _, _, _, _ => some (.reply c, { q with replies := cs })
  | [], c :: cs, _, _, _ => some (.event c, { q with events := cs })
  | [], [], c :: cs, _, _ => some (.window c, { q with windows := cs })
  | [], [], [], c :: cs, _ => some (.relay c, { q with relays := cs })
  | [], [], [], [], c :: cs => some (.live c, { q with lives := cs })
  | [], [], [], [], [] => none

/-- R142, steps 7 and 8: the notices of a transmission start to the Window Engine. -/
def startNotices (c : EgressCell) : List QueueNotice :=
  match c with
  | .window (.tail t) => [.tailTransmitted t.id, .room]
  | .window (.head _) => [.room]
  | .window (.sample _) => [.room]
  | .reply _ => [.room]
  | .event _ => [.room]
  | .relay _ => [.room]
  | .live _ => [.room]

/-- R140, R142, step 6: the waiting reply is admitted at a start that leaves O below 250. -/
def admitWaiting (s : State) : State :=
  match s.egress.waitingReply with
  | none => s
  | some c =>
    if occupancy s.egress < Config.reserveLimit then
      admitReply { s with egress := { s.egress with waitingReply := none } } c
    else s

/-- R142: the transmission of cell `c` starts; `q` is the queue without it. -/
def startSending (s : State) (c : EgressCell) (q : Egress) : State :=
  let t := admitWaiting { s with
    egress := { q with
      sending := some { seq := s.egress.nextSeq, cell := c }
      credits := s.egress.credits - 1
      nextSeq := s.egress.nextSeq + 1 }
    counters := { s.counters with cellsTransmitted := raise s.counters.cellsTransmitted 1 } }
  { t with paths := { t.paths with queueToEngine := t.paths.queueToEngine ++ startNotices c } }

/-- R141: the three conditions of a transmission start; without them the arbiter starts nothing. -/
def startTransmission (s : State) : State :=
  match s.egress.sending, chooseCell s.egress with
  | none, some (c, q) => if 0 < s.egress.credits then startSending s c q else s
  | _, _ => s

/-- TRANSMISSION_START (R141, R142). -/
def execTransmissionStart (s : State) : Host.Outcome State Fault Refusal := .next (startTransmission s)

/-- TRANSMISSION_COMPLETION (R144). With REFCLK lost the lane is stopped and completes nothing (R194). -/
def completeTransmission (s : State) : State :=
  if s.clock.refclk then { s with egress := { s.egress with sending := none } } else s

/-- TRANSMISSION_COMPLETION (R144). -/
def execTransmissionCompletion (s : State) : Host.Outcome State Fault Refusal := .next (completeTransmission s)

/-! ## Credits and settings -/

/-- R146: the event of a grant that takes the counter past its ceiling. -/
def overflowEvent (excess grant : Nat) : EventCell :=
  { code := .creditOverflow, round := none, a := word excess, b := word grant, forced := false }

/-- R146: a grant is added, with a ceiling of 1,023; the excess is reported by an event the queue offers itself. -/
def addCredits (s : State) (n : Nat) : State :=
  let sum := s.egress.credits + n
  let t := { s with egress := { s.egress with credits := min sum Config.creditLimit } }
  if sum ≤ Config.creditLimit then t else admitEvent t (overflowEvent (sum - Config.creditLimit) n)

/-- CREDIT_NOTICE (R146). -/
def takeCreditNotice (s : State) : State :=
  match s.paths.credits with
  | n :: rest => addCredits { s with paths := { s.paths with credits := rest } } n
  | [] => s

/-- CREDIT_NOTICE (R146). -/
def execCreditNotice (s : State) : Host.Outcome State Fault Refusal := .next (takeCreditNotice s)

/-- SETTINGS_ADOPTION (R148). -/
def takeSettings (s : State) : State :=
  match s.paths.settings with
  | x :: rest =>
    { s with
      egress := { s.egress with liveLimit := x.liveLimit, eventMask := x.eventMask }
      paths := { s.paths with settings := rest } }
  | [] => s

/-- SETTINGS_ADOPTION (R148). -/
def execSettingsAdoption (s : State) : Host.Outcome State Fault Refusal := .next (takeSettings s)

end Sys2Proof.Machine
end

