-- ==== Sys2Proof/Machine/Evaluator.lean ====
section
/-! DEFINITION. The Condition Evaluator (Chapter 3). -/

namespace Sys2Proof.Machine

/-- R39: an entry whose unit is evaluating; otherwise the unit is inert. -/
def evaluating (e : ChannelEntry) : Bool := decide (e.mode ≠ .off) && decide (e.condition ≠ .never)

/-- The step conditions (R41). -/
def isStep (c : ConditionKind) : Bool := decide (c = .riseStep) || decide (c = .fallStep)

/-- The true test (Tables 3-2 and 3-3) of the value or step `x`. -/
def trueTest (e : ChannelEntry) (x : Int) : Bool :=
  let a := e.levelA.toInt
  let b := e.levelB.toInt
  match e.condition with
  | .never => false
  | .above => decide (a < x)
  | .below => decide (x < a)
  | .outside => decide (x < a) || decide (b < x)
  | .inside => decide (a ≤ x) && decide (x ≤ b)
  | .riseStep => decide (a < x)
  | .fallStep => decide (x < -a)

/-- The release test (Tables 3-2 and 3-3) of the value or step `x`. -/
def releaseTest (e : ChannelEntry) (x : Int) : Bool :=
  let a := e.levelA.toInt
  let b := e.levelB.toInt
  let h : Int := e.hysteresis
  match e.condition with
  | .never => false
  | .above => decide (x ≤ a - h)
  | .below => decide (a + h ≤ x)
  | .outside => decide (a + h ≤ x) && decide (x ≤ b - h)
  | .inside => decide (x < a - h) || decide (b + h < x)
  | .riseStep => decide (x ≤ a - h)
  | .fallStep => decide (-a + h ≤ x)

/-- R41, R45: what the tests are applied to: the sample value, or the step from the previous value. None when the
sample is absent or, for a step condition, not evaluable. -/
def testInput (e : ChannelEntry) (previous : Option Sample) (gap : Nat) (value : Option Sample) : Option Int :=
  match value with
  | none => none
  | some v =>
    if isStep e.condition then
      if gap = 0 then previous.map fun p => v.toInt - p.toInt else none
    else some v.toInt

/-- What a unit does in one record, beside its own change (R48, R49). -/
inductive UnitOutcome
  | quiet
  | asserted
  | released (duration : Nat)
  deriving DecidableEq, Repr

/-- R44: a gap before the record ends qualification. -/
def afterGap (st : UnitState) (gap : Nat) : UnitState :=
  match st with
  | .qualifying k => if gap = 0 then .qualifying k else .idle
  | .idle => .idle
  | .active => .active

/-- R48: the unit asserts at round `r`. -/
def assertUnit (u : CondUnit) (r : Round) : CondUnit :=
  { u with state := .active, lastAssert := some r, assertCount := raiseCount u.assertCount }

/-- R49: the forward distance from the last assert round to `r`. A unit in ACTIVE has a last assert round. -/
def durationAt (u : CondUnit) (r : Round) : Nat :=
  match u.lastAssert with
  | some a => distance a r
  | none => 0

/-- R49: the unit releases at round `r`. -/
def releaseUnit (u : CondUnit) (r : Round) : CondUnit :=
  { u with state := .idle, lastRelease := some r, lastDuration := some (durationAt u r) }

/-- R46: one more consecutive true sample after `k`: the unit asserts at the Q-th. -/
def qualifyUnit (e : ChannelEntry) (u : CondUnit) (r : Round) (k : Nat) : CondUnit × UnitOutcome :=
  if k + 1 = e.qualify then (assertUnit u r, .asserted) else ({ u with state := .qualifying (k + 1) }, .quiet)

/-- R46: an IDLE or QUALIFYING unit with `k` true samples behind it is judged. -/
def judgeIdle (e : ChannelEntry) (u : CondUnit) (r : Round) (k : Nat) (x : Int) : CondUnit × UnitOutcome :=
  if trueTest e x then qualifyUnit e u r k else ({ u with state := .idle }, .quiet)

/-- R47: an ACTIVE unit is judged. -/
def judgeActive (e : ChannelEntry) (u : CondUnit) (r : Round) (x : Int) : CondUnit × UnitOutcome :=
  if releaseTest e x then (releaseUnit u r, .released (durationAt u r)) else (u, .quiet)

/-- R45: an absent sample, or one that is not evaluable. -/
def withoutSample (u : CondUnit) : CondUnit :=
  match u.state with
  | .qualifying _ => { u with state := .idle }
  | .idle => u
  | .active => u

/-- R43 to R49: the gap step, the classification and the transition of an evaluating unit. -/
def transition (e : ChannelEntry) (u : CondUnit) (r : Round) (gap : Nat) (value : Option Sample) : CondUnit × UnitOutcome :=
  let v := { u with state := afterGap u.state gap }
  match testInput e u.previous gap value with
  | none => (withoutSample v, .quiet)
  | some x =>
    match v.state with
    | .idle => judgeIdle e v r 0 x
    | .qualifying k => judgeIdle e v r k x
    | .active => judgeActive e v r x

/-- R43, R50: one unit in one record. An inert unit changes nothing (R39). -/
def stepUnit (e : ChannelEntry) (u : CondUnit) (r : Round) (gap : Nat) (value : Option Sample) : CondUnit × UnitOutcome :=
  if evaluating e then
    let p := transition e u r gap value
    ({ p.1 with previous := value }, p.2)
  else (u, .quiet)

/-- The 16 units in one record. -/
def stepUnits (v : Evaluator) (x : Record) : Vector (CondUnit × UnitOutcome) 16 :=
  Vector.ofFn fun i => stepUnit (v.entries.get i) (v.units.get i) x.round x.gapBefore (x.values.get i)

/-- R51: a unit that is ACTIVE. -/
def isActive (u : CondUnit) : Bool := decide (u.state = .active)

/-- R51: the released list, in ascending channel order. -/
def releasedList (rs : Vector (CondUnit × UnitOutcome) 16) : List (Fin 16 × Nat) :=
  (List.finRange 16).filterMap fun i =>
    match (rs.get i).2 with
    | .released d => some (i, d)
    | .quiet => none
    | .asserted => none

/-- R51: the verdict of a record. -/
def verdictOf (x : Record) (rs : Vector (CondUnit × UnitOutcome) 16) : Verdict :=
  { round := x.round
    asserted := maskOf fun i => decide ((rs.get i).2 = .asserted)
    active := maskOf fun i => isActive (rs.get i).1
    released := releasedList rs }

/-- The Condition Evaluator has taken the front of its input path. -/
def evaluatorTakes (s : State) (rest : List PathItem) : State :=
  { s with paths := { s.paths with asmToEvaluator := rest } }

/-- The units become `f` of what they were, each with its index. -/
def changeUnits (s : State) (f : Fin 16 → CondUnit → CondUnit) : State :=
  { s with evaluator := { s.evaluator with units := Vector.ofFn fun i => f i (s.evaluator.units.get i) } }

/-- R43: a record is handled whole, and its verdict placed on the path to the Trigger Table. -/
def evaluateRecord (s : State) (x : Record) : State :=
  let rs := stepUnits s.evaluator x
  toTable { s with evaluator := { s.evaluator with units := Vector.ofFn fun i => (rs.get i).1 } }
    (.verdict (verdictOf x rs))

/-- RECORD_EVALUATION (R43 to R52). -/
def takeRecordEvaluation (s : State) : State :=
  match s.paths.asmToEvaluator with
  | .record x :: rest => evaluateRecord (evaluatorTakes s rest) x
  | _ => s

/-- RECORD_EVALUATION (R43 to R52). -/
def execRecordEvaluation (s : State) : Host.Outcome State Fault Refusal := .next (takeRecordEvaluation s)

/-- R53: what LOST does to a unit. -/
def unitAtLost (u : CondUnit) : CondUnit := { withoutSample u with previous := none }

/-- R54: what RESTART does to a unit. -/
def unitAtRestart (u : CondUnit) : CondUnit := { u with state := .idle, previous := none }

/-- EVALUATOR_LOST_NOTICE (R53). -/
def takeEvaluatorLost (s : State) : State :=
  match s.paths.asmToEvaluator with
  | .lost :: rest => toTable (changeUnits (evaluatorTakes s rest) fun _ u => unitAtLost u) .lost
  | _ => s

/-- EVALUATOR_LOST_NOTICE (R53). -/
def execEvaluatorLostNotice (s : State) : Host.Outcome State Fault Refusal := .next (takeEvaluatorLost s)

/-- EVALUATOR_RESTART_NOTICE (R54). -/
def takeEvaluatorRestart (s : State) : State :=
  match s.paths.asmToEvaluator with
  | .restart :: rest => toTable (changeUnits (evaluatorTakes s rest) fun _ u => unitAtRestart u) .restart
  | _ => s

/-- EVALUATOR_RESTART_NOTICE (R54). -/
def execEvaluatorRestartNotice (s : State) : Host.Outcome State Fault Refusal := .next (takeEvaluatorRestart s)

/-- R55: each changed CHANNEL entry is adopted and its unit reset; the epoch is adopted. -/
def evaluatorAdopts (s : State) (e : Epoch) : State :=
  { s with evaluator :=
    { entries := s.agent.staging.channels
      units := Vector.ofFn fun i =>
        if s.evaluator.entries.get i = s.agent.staging.channels.get i then s.evaluator.units.get i else resetUnit
      epoch := e } }

/-- EVALUATOR_EPOCH_MARK (R55). -/
def takeEvaluatorMark (s : State) : State :=
  match s.paths.asmToEvaluator with
  | .mark e :: rest => toTable (evaluatorAdopts (evaluatorTakes s rest) e) (.mark e)
  | _ => s

/-- EVALUATOR_EPOCH_MARK (R55). -/
def execEvaluatorEpochMark (s : State) : Host.Outcome State Fault Refusal := .next (takeEvaluatorMark s)

/-- EVALUATOR_NODE_RESET_NOTICE (R56). -/
def takeEvaluatorNodeReset (s : State) : State :=
  match s.paths.asmToEvaluator with
  | .nodeReset :: rest => toTable (changeUnits (evaluatorTakes s rest) fun _ _ => resetUnit) .nodeReset
  | _ => s

/-- EVALUATOR_NODE_RESET_NOTICE (R56). -/
def execEvaluatorNodeResetNotice (s : State) : Host.Outcome State Fault Refusal := .next (takeEvaluatorNodeReset s)

end Sys2Proof.Machine
end

