-- ==== Sys2Proof/Machine/Agent.lean ====
section
/-! DEFINITION. The Management Agent: arrivals, services, session, lease, commits and node resets (Chapters 8 and 9),
but for READ (Reads.lean). -/

namespace Sys2Proof.Machine

/-! ## Arrival (R170, R171) -/

/-- R170, cases 1 and 2: a malformed request is counted. -/
def malformedRequest (s : State) : State :=
  { s with counters := { s.counters with malformedRequests := raise s.counters.malformedRequests 1 } }

/-- R170, case 2: a CREDIT on arrival. -/
def creditArrives (s : State) (n : Nat) : State :=
  if 1 ≤ n ∧ n ≤ Config.creditLimit then { s with paths := { s.paths with credits := s.paths.credits ++ [n] } }
  else malformedRequest s

/-- R171: a RENEW arrival restarts the lease of an OPEN session that has one. -/
def renewArrives (s : State) : State :=
  if s.agent.session = .opened ∧ 0 < s.agent.leasePeriod then
    { s with agent := { s.agent with leaseExpiry := some (expiryIn s s.agent.leasePeriod) } }
  else s

/-- R170, case 4: a request joins the FIFO, or is dropped and counted. -/
def enqueueRequest (s : State) (q : Request) : State :=
  if s.agent.fifo.length < Config.fifoCapacity then
    { s with agent := { s.agent with fifo := s.agent.fifo ++ [q] } }
  else { s with counters := { s.counters with requestsDropped := raise s.counters.requestsDropped 1 } }

/-- R170: the classification of an arriving request. -/
def classifyArrival (s : State) (q : Request) : State :=
  match destinationOf q.dest with
  | none => malformedRequest s
  | some .front => enqueueRequest s q
  | some .node =>
    match kindOf q.kind with
    | some .credit => creditArrives s q.value.toNat
    | some .renew => enqueueRequest (renewArrives s) q
    | _ => enqueueRequest s q

/-- REQUEST_ARRIVAL (R170, R171). -/
def execRequestArrival (dt : Nat) (request : Request) (s : State) : Host.Outcome State Fault Refusal :=
  .next (onLane s dt fun t => classifyArrival t request)

/-! ## Service (R172 to R174) -/

/-- R172: the request whose service the Agent may begin: the head of the FIFO, with the phase FREE and no commit or
node reset in progress. -/
def headToServe (s : State) : Option Request :=
  if s.agent.phase = .free ∧ s.agent.nodeResetting = false ∧ s.agent.committing = false then s.agent.fifo.head? else none

/-- R173: the Agent offers the reply to request `q`, and waits for its admission. -/
def reply (s : State) (q : Request) (result : Result) (value aux : Word32) : State :=
  agentOffer { s with agent := { s.agent with phase := .awaitingRoom } }
    (.reply { tag := q.tag, kind := q.kind, result := result, value := value, aux := aux })

/-- R174: a reply with value 0 and aux 0. -/
def bareReply (s : State) (q : Request) (result : Result) : State := reply s q result 0 0

/-- The service of the head request, where it is a NODE request of kind `k`. -/
def serve (s : State) (k : Kind) (act : State → Request → State) : State :=
  match headToServe s with
  | some q => if destinationOf q.dest = some .node ∧ kindOf q.kind = some k then act s q else s
  | none => s

/-- R173, check 2: a kind that needs the session OPEN. -/
def needsSession (act : State → Request → State) (s : State) (q : Request) : State :=
  match s.agent.session with
  | .opened => act s q
  | .closed => bareReply s q .noSession
  | .expired => bareReply s q .expired

/-- R173, check 1: an unknown kind is answered BADKIND. -/
def serveUnknown (s : State) : State :=
  match headToServe s with
  | some q => if destinationOf q.dest = some .node ∧ kindOf q.kind = none then bareReply s q .badKind else s
  | none => s

/-- UNKNOWN_KIND_SERVICE (R173). -/
def execUnknownKindService (s : State) : Host.Outcome State Fault Refusal := .next (serveUnknown s)

/-! ## The session (R177 to R181) -/

/-- R177: session-open notices when the session leaves EXPIRED. -/
def sendSessionOpen (s : State) : State :=
  if s.agent.session = .expired then
    noticeToEngine (noticeToLines (noticeToTable s .sessionOpen) .sessionOpen) .sessionOpen
  else s

/-- R177: the session opens with lease period `l`. -/
def openWith (s : State) (l : Nat) : State :=
  let t := sendSessionOpen s
  { t with agent := { t.agent with
    session := .opened
    leasePeriod := l
    leaseExpiry := if 0 < l then some (expiryIn s l) else none } }

/-- R177: service of OPEN. -/
def serveOpen (s : State) (q : Request) : State :=
  if s.agent.session = .opened then bareReply s q .inSession
  else if Config.leaseLimit < q.value.toNat then bareReply s q .badArg
  else reply (openWith s q.value.toNat) q .ok q.value (s.agent.epoch.setWidth 32)

/-- OPEN (R177). -/
def execOpenSession (s : State) : Host.Outcome State Fault Refusal := .next (serve s .openSession serveOpen)

/-- R178: service of CLOSE in an OPEN session. -/
def serveClose (s : State) (q : Request) : State :=
  let t := noticeToLines (noticeToTable s .close) .close
  bareReply { t with agent := { t.agent with session := .closed, leasePeriod := 0, leaseExpiry := none } } q .ok

/-- CLOSE (R178). -/
def execCloseSession (s : State) : Host.Outcome State Fault Refusal := .next (serve s .closeSession (needsSession serveClose))

/-- R179: the whole milliseconds to the lease's expiry, or 0 when the timer is stopped. -/
def leaseRemaining (s : State) : Nat :=
  match s.agent.leaseExpiry with
  | none => 0
  | some e => (e - s.clock.localTimer) / Config.microsPerMilli

/-- R179: service of RENEW in an OPEN session. -/
def serveRenew (s : State) (q : Request) : State := reply s q .ok (word s.agent.leasePeriod) (word (leaseRemaining s))

/-- RENEW (R179). -/
def execRenew (s : State) : Host.Outcome State Fault Refusal := .next (serve s .renew (needsSession serveRenew))

/-- R180: the lease runs out. -/
def leaseRunsOut (s : State) : State :=
  let t := noticeToEngine (noticeToLines (noticeToTable s .safeState) .safeState) .safeState
  agentOffer { t with agent := { t.agent with session := .expired, leaseExpiry := none } }
    (.event { code := .leaseExpired, round := none, a := word s.agent.leasePeriod, b := 0, forced := false })

/-- LEASE_EXPIRY (R180): the local timer reaches the expiry; a stopped timer, or one that another timer's expiry
precedes, does not expire. -/
def leaseExpires (s : State) : State :=
  match s.agent.leaseExpiry with
  | none => s
  | some e => if canExpire s e then leaseRunsOut (reach s e) else s

/-- LEASE_EXPIRY (R180). -/
def execLeaseExpiry (s : State) : Host.Outcome State Fault Refusal := .next (leaseExpires s)

/-! ## Editing STAGING (R156 to R158) -/

/-- R156: service of WRITE in an OPEN session. -/
def serveWrite (s : State) (q : Request) : State :=
  match writeBank s.agent.staging q.table.toNat q.index.toNat q.field.toNat q.value with
  | none => bareReply s q .badArg
  | some b =>
    reply { s with agent := { s.agent with staging := b, writeCount := raiseCount s.agent.writeCount } } q .ok
      (word (raiseCount s.agent.writeCount)) 0

/-- WRITE (R156). -/
def execWrite (s : State) : Host.Outcome State Fault Refusal := .next (serve s .write (needsSession serveWrite))

/-- R158: service of REVERT in an OPEN session. -/
def serveRevert (s : State) (q : Request) : State :=
  reply { s with agent := { s.agent with staging := s.agent.active, writeCount := 0 } } q .ok
    (s.agent.epoch.setWidth 32) 0

/-- REVERT (R158). -/
def execRevert (s : State) : Host.Outcome State Fault Refusal := .next (serve s .revert (needsSession serveRevert))

/-! ## Commit (R159 to R165) -/

/-- R161: the commit starts. -/
def startCommit (s : State) : State :=
  let e := s.agent.epoch + 1
  startAssembler { s with agent := { s.agent with
    epoch := e, committing := true, markRound := .absent, engineAcked := false, linesAcked := false,
    phase := .awaitingAck } } (.commit e)

/-- R159, R160: service of COMMIT in an OPEN session. -/
def serveCommit (s : State) (q : Request) : State :=
  if Config.countLimit < q.value.toNat then bareReply s q .badArg
  else if q.value.toNat ≠ s.agent.writeCount then reply s q .count (word s.agent.writeCount) 0
  else
    match firstFault s.agent.staging with
    | some (check, table, index) => reply s q .badCfg (word check) (word (table * 256 + index))
    | none => startCommit s

/-- COMMIT (R159 to R161). -/
def execCommit (s : State) : Host.Outcome State Fault Refusal := .next (serve s .commit (needsSession serveCommit))

/-- R165: the aux of the COMMIT reply. -/
def markRoundAux (m : MarkRound) : Word32 :=
  match m with
  | .absent => 0xFFFFFFFF#32
  | .noRound => 0xFFFFFFFF#32
  | .round r => r

/-- R164: the Agent has taken the report and both acknowledgements. -/
def commitReady (a : Agent) : Bool :=
  a.committing && a.engineAcked && a.linesAcked && decide (a.markRound ≠ .absent)

/-- R164, R165: the commit completes. -/
def finishCommit (s : State) : State :=
  let x := s.agent.staging.settings
  let t := settingsToQueue
    { s with agent := { s.agent with active := s.agent.staging, writeCount := 0, committing := false } }
    { liveLimit := x.liveLimit, eventMask := x.eventMask }
  match s.agent.fifo.head? with
  | some q => reply t q .ok (s.agent.epoch.setWidth 32) (markRoundAux s.agent.markRound)
  | none => t

/-- R164: completes the commit when the last of the three has been taken. -/
def completeCommit (s : State) : State := if commitReady s.agent then finishCommit s else s

/-- MARK_ROUND_REPORT (R162). -/
def takeMarkReport (s : State) : State :=
  match s.paths.asmReports with
  | r :: rest =>
    completeCommit { s with
      paths := { s.paths with asmReports := rest }
      agent := { s.agent with markRound := match r with
        | none => .noRound
        | some x => .round x } }
  | [] => s

/-- MARK_ROUND_REPORT (R162, R164). -/
def execMarkRoundReport (s : State) : Host.Outcome State Fault Refusal := .next (takeMarkReport s)

/-- The Agent has taken an acknowledgement from a block. -/
def noteAck (s : State) (source : Acknowledger) : State :=
  match source with
  | .windowEngine => { s with agent := { s.agent with engineAcked := true } }
  | .outputLines => { s with agent := { s.agent with linesAcked := true } }

/-- MARK_ACK (R164): the front of the block's acknowledgements, where it is one of a mark. -/
def takeMarkAck (source : Acknowledger) (s : State) : State :=
  match source with
  | .windowEngine =>
    match s.paths.engineAcks with
    | .mark _ :: rest => completeCommit (noteAck { s with paths := { s.paths with engineAcks := rest } } source)
    | _ => s
  | .outputLines =>
    match s.paths.lineAcks with
    | .mark _ :: rest => completeCommit (noteAck { s with paths := { s.paths with lineAcks := rest } } source)
    | _ => s

/-- MARK_ACK (R164, R165). -/
def execMarkAck (source : Acknowledger) (s : State) : Host.Outcome State Fault Refusal := .next (takeMarkAck source s)

/-! ## ARM, DISARM, FIRE and LINE (R175) -/

/-- R175: the checks have passed, and the notice is still to be sent. -/
def enterDispatching (s : State) : State := { s with agent := { s.agent with phase := .dispatching } }

/-- R175: the entry mask of an ARM or DISARM, 0 to 255. -/
def entryMaskOf (v : Word32) : Option EntryMask := if v.toNat ≤ 255 then some (BitVec.ofNat 8 v.toNat) else none

/-- R175: the notice that a request of kind ARM, DISARM, FIRE or LINE sends, if its arguments are in range. -/
inductive DirectNotice
  | toTable (x : TriggerNotice)
  | toLines (x : LineNotice)
  deriving DecidableEq, Repr

/-- R175: the direct notice of a request; none for another kind, or for arguments out of range. -/
def directNotice (q : Request) : Option DirectNotice :=
  match kindOf q.kind with
  | some .arm => (entryMaskOf q.value).map fun m => .toTable (.arm m)
  | some .disarm => (entryMaskOf q.value).map fun m => .toTable (.disarm m)
  | some .fire => (indexOf 8 q.index.toNat).map fun i => .toTable (.fire i)
  | some .line =>
    (indexOf 8 q.index.toNat).bind fun n => (lineCommandOf q.value.toNat).map fun c => .toLines (.line n c)
  | _ => none

/-- R175: the service start of ARM, DISARM, FIRE or LINE in an OPEN session. -/
def serveDirect (s : State) (q : Request) : State :=
  match directNotice q with
  | some _ => enterDispatching s
  | none => bareReply s q .badArg

/-- ARM (R175). -/
def execArm (s : State) : Host.Outcome State Fault Refusal := .next (serve s .arm (needsSession serveDirect))

/-- DISARM (R175). -/
def execDisarm (s : State) : Host.Outcome State Fault Refusal := .next (serve s .disarm (needsSession serveDirect))

/-- FIRE (R175). -/
def execFireRequest (s : State) : Host.Outcome State Fault Refusal := .next (serve s .fire (needsSession serveDirect))

/-- LINE (R175). -/
def execLine (s : State) : Host.Outcome State Fault Refusal := .next (serve s .line (needsSession serveDirect))

/-- R175: a direct notice is sent. -/
def sendDirect (s : State) (x : DirectNotice) : State :=
  match x with
  | .toTable y => noticeToTable s y
  | .toLines y => noticeToLines s y

/-- R175: the head request, where its direct notice is still to be sent. -/
def toDispatch (s : State) : Option DirectNotice :=
  match s.agent.phase, s.agent.fifo.head? with
  | .dispatching, some q => if destinationOf q.dest = some .node then directNotice q else none
  | _, _ => none

/-- DISPATCH (R175). -/
def dispatchNotice (s : State) : State :=
  match toDispatch s with
  | some x => sendDirect { s with agent := { s.agent with phase := .awaitingAck } } x
  | none => s

/-- DISPATCH (R175). -/
def execDispatch (s : State) : Host.Outcome State Fault Refusal := .next (dispatchNotice s)

/-- R175: the reply to an acknowledged ARM, DISARM or FIRE. -/
def replyTableAck (s : State) (q : Request) (a : TriggerAck) : State :=
  if a.refused then reply s q .expired 0 (roundOrNone a.round) else reply s q .ok 0 (roundOrNone a.round)

/-- R175, R124: the reply to an acknowledged LINE. -/
def replyLineAck (s : State) (q : Request) (o : LineOutcome) (r : Option Round) : State :=
  match o with
  | .refused => reply s q .expired 0 (roundOrNone r)
  | .applied => reply s q .ok (roundOrNone r) 0
  | .ignored => reply s q .ok (roundOrNone r) 1

/-- R175: the head request whose notice awaits its acknowledgement. -/
def awaitingNotice (s : State) : Option (Request × DirectNotice) :=
  match s.agent.phase, s.agent.fifo.head? with
  | .awaitingAck, some q => if destinationOf q.dest = some .node then (directNotice q).map fun x => (q, x) else none
  | _, _ => none

/-- NOTICE_ACK (R175): the acknowledgement from the block the notice went to. -/
def takeNoticeAck (s : State) : State :=
  match awaitingNotice s, s.paths.tableAcks, s.paths.lineAcks with
  | some (q, .toTable _), a :: rest, _ => replyTableAck { s with paths := { s.paths with tableAcks := rest } } q a
  | some (q, .toLines _), _, .notice o r :: rest =>
    replyLineAck { s with paths := { s.paths with lineAcks := rest } } q o r
  | _, _, _ => s

/-- NOTICE_ACK (R175). -/
def execNoticeAck (s : State) : Host.Outcome State Fault Refusal := .next (takeNoticeAck s)

/-! ## CLEAR_COUNTERS and NODE_RESET (R182, R183) -/

/-- R183: service of CLEAR_COUNTERS in an OPEN session: all 21 counters become 0. -/
def serveClearCounters (s : State) (q : Request) : State := bareReply { s with counters := zeroCounters } q .ok

/-- CLEAR_COUNTERS (R183). -/
def execClearCounters (s : State) : Host.Outcome State Fault Refusal :=
  .next (serve s .clearCounters (needsSession serveClearCounters))

/-- R182: service of NODE_RESET in an OPEN session. -/
def serveNodeReset (s : State) (_q : Request) : State :=
  startAssembler { s with agent := { s.agent with
    nodeResetting := true, engineAcked := false, linesAcked := false, phase := .awaitingAck } } .nodeReset

/-- NODE_RESET (R182). -/
def execNodeReset (s : State) : Host.Outcome State Fault Refusal :=
  .next (serve s .nodeReset (needsSession serveNodeReset))

/-- R182: the node reset ends when both acknowledgements have been taken. -/
def completeNodeReset (s : State) : State :=
  if s.agent.nodeResetting && s.agent.engineAcked && s.agent.linesAcked then
    let t := { s with agent := { s.agent with nodeResetting := false } }
    match s.agent.fifo.head? with
    | some q => reply t q .ok (s.agent.epoch.setWidth 32) 0
    | none => t
  else s

/-- NODE_RESET_ACK (R182): the front of the block's acknowledgements, where it is one of a node reset. -/
def takeNodeResetAck (source : Acknowledger) (s : State) : State :=
  match source with
  | .windowEngine =>
    match s.paths.engineAcks with
    | .nodeReset :: rest => completeNodeReset (noteAck { s with paths := { s.paths with engineAcks := rest } } source)
    | _ => s
  | .outputLines =>
    match s.paths.lineAcks with
    | .nodeReset :: rest => completeNodeReset (noteAck { s with paths := { s.paths with lineAcks := rest } } source)
    | _ => s

/-- NODE_RESET_ACK (R182). -/
def execNodeResetAck (source : Acknowledger) (s : State) : Host.Outcome State Fault Refusal :=
  .next (takeNodeResetAck source s)

/-! ## FRONT-addressed requests (R176) -/

/-- R176: an FE_COMMAND starts on Front Out, and its request leaves the FIFO without a reply. -/
def startRelay (s : State) (q : Request) : State := endService { s with frontOut := some (commandBytes q) }

/-- R176: service of a FRONT-addressed request in an OPEN session. -/
def relayRequest (s : State) (q : Request) : State :=
  match s.frontOut with
  | none => startRelay s q
  | some _ => enterDispatching s

/-- FRONT_RELAY (R176). -/
def serveFront (s : State) : State :=
  match headToServe s with
  | some q => if destinationOf q.dest = some .front then needsSession relayRequest s q else s
  | none => s

/-- FRONT_RELAY (R176). -/
def execFrontRelay (s : State) : Host.Outcome State Fault Refusal := .next (serveFront s)

/-- R176: the FRONT-addressed head request that waits for Front Out. -/
def waitingRelay (s : State) : Option Request :=
  match s.agent.phase, s.agent.fifo.head? with
  | .dispatching, some q => if destinationOf q.dest = some .front then some q else none
  | _, _ => none

/-- FE_COMMAND_TX_COMPLETE (R176): Front Out has sent its cell, and a waiting one starts. With REFCLK lost the lane
is stopped (R194). -/
def completeRelay (s : State) : State :=
  match s.clock.refclk, s.frontOut with
  | true, some _ =>
    let t := { s with frontOut := none }
    match waitingRelay s with
    | some q => startRelay t q
    | none => t
  | _, _ => s

/-- FE_COMMAND_TX_COMPLETE (R176). -/
def execFeCommandTxComplete (s : State) : Host.Outcome State Fault Refusal := .next (completeRelay s)

end Sys2Proof.Machine
end

