-- ==== Sys2Proof/Machine/History.lean ====
section
/-! DEFINITION. The History Store (Chapter 2). -/

namespace Sys2Proof.Machine

/-- The oldest round held (§2.1). -/
def oldestRound (h : Store) : Option Round := h.ring.head?.map Record.round

/-- The newest round held (§2.1). -/
def newestRound (h : Store) : Option Round := h.ring.getLast?.map Record.round

/-- The record of round `r`, if it is held. -/
def heldRecord (h : Store) (r : Round) : Option Record := h.ring.find? fun x => x.round == r

/-- The classes of a round (R34). -/
inductive RoundClass
  | held
  | gap
  | ahead
  | behind
  | empty
  deriving DecidableEq, Repr

/-- R34: where round `r` stands in the store. R35 says that a round removed by a change is then BEHIND or EMPTY. For a
round that reach removed and that lies after the newest (round 100 after Table 2-7), R34 gives AHEAD, and the model
follows R34 (notes/assumptions/22, DEDUCED). -/
def classify (h : Store) (r : Round) : RoundClass :=
  match oldestRound h, newestRound h with
  | some o, some n =>
    if (heldRecord h r).isSome then .held
    else if distance o r ≤ distance o n then .gap
    else if isAfter r n then .ahead
    else .behind
  | _, _ => .empty

/-- R192: the aux of a NOTHELD reply. -/
def classCode : RoundClass → Nat
  | .held => 0
  | .gap => 1
  | .ahead => 2
  | .behind => 3
  | .empty => 4

/-- R27: the held records that round `n` is not after, from the oldest end. -/
def reachRemoved (ring : List Record) (n : Round) : List Record := ring.takeWhile fun x => !isAfter n x.round

/-- R27: the records that stay after the reach step. -/
def reachKept (ring : List Record) (n : Round) : List Record := ring.dropWhile fun x => !isAfter n x.round

/-- R28: with 512 records held, the oldest is removed. -/
def capacityRemoved (ring : List Record) : List Record := if Config.ringCapacity ≤ ring.length then ring.take 1 else []

/-- R28: the records that stay after the capacity step. -/
def capacityKept (ring : List Record) : List Record := if Config.ringCapacity ≤ ring.length then ring.drop 1 else ring

/-- The overwritten notices of the records an append removes (R29). -/
def overwrittenNotices (removed : List Record) : List StoreNotice := removed.map fun x => .overwritten x.round

/-- R26: a span start record empties the ring; any other record removes by reach and capacity. It is then appended,
and a stored notice follows. -/
def appendRecord (s : State) (x : Record) : State :=
  if x.spanStart then
    storeNotices { s with store := { ring := [x], spanStart := some x.round } } [.stored x.round]
  else
    let kept := reachKept s.store.ring x.round
    storeNotices { s with store := { s.store with ring := capacityKept kept ++ [x] } }
      (overwrittenNotices (reachRemoved s.store.ring x.round ++ capacityRemoved kept) ++ [.stored x.round])

/-- The History Store has taken the front of its input path. -/
def storeTakes (s : State) (rest : List PathItem) : State :=
  { s with paths := { s.paths with asmToStore := rest } }

/-- RECORD_APPEND (R26). -/
def takeRecordAppend (s : State) : State :=
  match s.paths.asmToStore with
  | .record x :: rest => appendRecord (storeTakes s rest) x
  | _ => s

/-- RECORD_APPEND (R26 to R29). -/
def execRecordAppend (s : State) : Host.Outcome State Fault Refusal := .next (takeRecordAppend s)

/-- R30, R33: the ring is emptied, and oldest, newest and span start become absent. -/
def flushStore (s : State) (notice : StoreNotice) : State :=
  storeNotices { s with store := { ring := [], spanStart := none } } [notice]

/-- HISTORY_RESTART_NOTICE (R30). -/
def takeHistoryRestart (s : State) : State :=
  match s.paths.asmToStore with
  | .restart :: rest => flushStore (storeTakes s rest) .flushedRestart
  | _ => s

/-- HISTORY_RESTART_NOTICE (R30). -/
def execHistoryRestartNotice (s : State) : Host.Outcome State Fault Refusal := .next (takeHistoryRestart s)

/-- HISTORY_LOST_NOTICE (R31): the notice is forwarded with the newest round held. R31 says that the ring is never
empty here. -/
def execHistoryLostNotice (s : State) : Host.Outcome State Fault Refusal :=
  match s.paths.asmToStore with
  | .lost :: rest =>
    match newestRound s.store with
    | some n => .next (storeNotices (storeTakes s rest) [.lost n])
    | none => .fault .lostNoticeOnEmptyStore
  | _ => .next s

/-- HISTORY_EPOCH_MARK (R32): the mark is taken and discarded. -/
def takeHistoryMark (s : State) : State :=
  match s.paths.asmToStore with
  | .mark _ :: rest => storeTakes s rest
  | _ => s

/-- HISTORY_EPOCH_MARK (R32). -/
def execHistoryEpochMark (s : State) : Host.Outcome State Fault Refusal := .next (takeHistoryMark s)

/-- HISTORY_NODE_RESET_NOTICE (R33). -/
def takeHistoryNodeReset (s : State) : State :=
  match s.paths.asmToStore with
  | .nodeReset :: rest => flushStore (storeTakes s rest) .flushedNodeReset
  | _ => s

/-- HISTORY_NODE_RESET_NOTICE (R33). -/
def execHistoryNodeResetNotice (s : State) : Host.Outcome State Fault Refusal := .next (takeHistoryNodeReset s)

end Sys2Proof.Machine
end

