-- ==== Sys2Proof/Machine/Lines.lean ====
section
/-! DEFINITION. The Output Line Unit (Chapter 6). -/

namespace Sys2Proof.Machine

/-- The opposite level. -/
def opposite : Level → Level
  | .low => .high
  | .high => .low

/-- R120: the level of a pin. -/
def pinLevel (e : LineEntry) (st : LineState) (held : Bool) : Level :=
  if e.enable && !held && decide (st ≠ .inactive) then opposite e.idle else e.idle

/-- R120: the level of pin OLn. -/
def pinOf (s : State) (n : Fin 8) : Level := pinLevel (s.lines.entries.get n) (s.lines.lines.get n) s.lines.held

/-- R122, stage 1: a pulse whose end is at or before `r` ends. -/
def expirePulse (r : Round) (st : LineState) : LineState :=
  match st with
  | .pulsing e => if atOrAfter r e then .inactive else .pulsing e
  | .levelled => .levelled
  | .inactive => .inactive

/-- R128, R129: a pulse ends at once. -/
def endPulse (st : LineState) : LineState :=
  match st with
  | .pulsing _ => .inactive
  | .levelled => .levelled
  | .inactive => .inactive

/-- R123: an odd number of TOGGLEs flips a line. -/
def flipLine (st : LineState) : LineState :=
  match st with
  | .inactive => .levelled
  | .levelled => .inactive
  | .pulsing _ => .inactive

/-- An action in the list. -/
def names (acts : List LineOp) (a : LineAction) : Bool := acts.any fun x => decide (x.action = a)

/-- R123: the largest pulse length among the PULSE actions. -/
def longestPulse (acts : List LineOp) : Nat :=
  ((acts.filter fun x => decide (x.action = .pulse)).map LineOp.length).foldl max 0

/-- R123: a PULSE in a step of round `r` starts a pulse, or lengthens the one in progress. -/
def startPulse (r : Round) (m : Nat) (st : LineState) : LineState :=
  match st with
  | .pulsing e => .pulsing (later (roundsAfter r m) e)
  | .levelled => .pulsing (roundsAfter r m)
  | .inactive => .pulsing (roundsAfter r m)

/-- R123 (Table 6-3): the actions of one step for one enabled line, combined; the first case that applies decides. -/
def combineActions (r : Round) (acts : List LineOp) (st : LineState) : LineState :=
  if names acts .clear then .inactive
  else if names acts .set then .levelled
  else if names acts .pulse then startPulse r (longestPulse acts) st
  else if acts.length % 2 = 1 then flipLine st
  else st

/-- R122: one line in one step. -/
def stepLine (e : LineEntry) (held : Bool) (r : Round) (acts : List LineOp) (st : LineState) : LineState :=
  if e.enable && !held then combineActions r acts (expirePulse r st) else expirePulse r st

/-- Each line becomes `f` of what it was, with its index. -/
def changeLines (s : State) (f : Fin 8 → LineState → LineState) : State :=
  { s with lines := { s.lines with lines := Vector.ofFn fun n => f n (s.lines.lines.get n) } }

/-- The last step round. -/
def setLastStep (s : State) (r : Option Round) : State := { s with lines := { s.lines with lastStep := r } }

/-- The actions of a step that name line `n`. -/
def actionsFor (x : LineStep) (n : Fin 8) : List LineOp := x.actions.filter fun a => decide (a.line = n)

/-- R122: a line step is handled whole. -/
def handleStep (s : State) (x : LineStep) : State :=
  setLastStep
    (changeLines s fun n st => stepLine (s.lines.entries.get n) s.lines.held x.round (actionsFor x n) st)
    (some x.round)

/-- The Output Line Unit has taken the front of its input path. -/
def linesTake (s : State) (rest : List LineItem) : State :=
  { s with paths := { s.paths with tableToLines := rest } }

/-- The Output Line Unit has taken the front of its direct notices. -/
def linesTakeNotice (s : State) (rest : List LineNotice) : State :=
  { s with paths := { s.paths with agentToLines := rest } }

/-- LINE_STEP (R122, R123). -/
def takeLineStep (s : State) : State :=
  match s.paths.tableToLines with
  | .step x :: rest => handleStep (linesTake s rest) x
  | _ => s

/-- LINE_STEP (R122, R123). -/
def execLineStep (s : State) : Host.Outcome State Fault Refusal := .next (takeLineStep s)

/-- R124: CLEAR, SET and TOGGLE of a LINE notice, as R123 states for a step with that single action. -/
def commandLine (c : LineCommand) (st : LineState) : LineState :=
  match c with
  | .clear => .inactive
  | .set => .levelled
  | .toggle => flipLine st

/-- R124: what the unit does with a LINE notice for line `n`. -/
def lineOutcome (u : LineUnit) (n : Fin 8) : LineOutcome :=
  if u.held then .refused else if (u.entries.get n).enable then .applied else .ignored

/-- R124: a LINE notice is handled and acknowledged with the last step round. -/
def handleLineNotice (s : State) (n : Fin 8) (c : LineCommand) : State :=
  let t := if lineOutcome s.lines n = .applied then
      changeLines s fun k st => if k = n then commandLine c st else st
    else s
  lineAck t (.notice (lineOutcome s.lines n) s.lines.lastStep)

/-- LINE_NOTICE (R124). -/
def takeLineNotice (s : State) : State :=
  match s.paths.agentToLines with
  | .line n c :: rest => handleLineNotice (linesTakeNotice s rest) n c
  | _ => s

/-- LINE_NOTICE (R124). -/
def execLineNotice (s : State) : Host.Outcome State Fault Refusal := .next (takeLineNotice s)

/-- The held flag of the Output Line Unit. -/
def setLinesHeld (s : State) (b : Bool) : State := { s with lines := { s.lines with held := b } }

/-- Every line becomes INACTIVE. -/
def allInactive (s : State) : State := changeLines s fun _ _ => .inactive

/-- LINE_SAFE_STATE (R125). -/
def takeLineSafeState (s : State) : State :=
  match s.paths.agentToLines with
  | .safeState :: rest => setLinesHeld (allInactive (linesTakeNotice s rest)) true
  | _ => s

/-- LINE_SAFE_STATE (R125). -/
def execLineSafeState (s : State) : Host.Outcome State Fault Refusal := .next (takeLineSafeState s)

/-- LINE_SESSION_OPEN (R126). -/
def takeLineSessionOpen (s : State) : State :=
  match s.paths.agentToLines with
  | .sessionOpen :: rest => setLinesHeld (linesTakeNotice s rest) false
  | _ => s

/-- LINE_SESSION_OPEN (R126). -/
def execLineSessionOpen (s : State) : Host.Outcome State Fault Refusal := .next (takeLineSessionOpen s)

/-- LINE_CLOSE (R127). -/
def takeLineClose (s : State) : State :=
  match s.paths.agentToLines with
  | .close :: rest => allInactive (linesTakeNotice s rest)
  | _ => s

/-- LINE_CLOSE (R127). -/
def execLineClose (s : State) : Host.Outcome State Fault Refusal := .next (takeLineClose s)

/-- LINE_LOST_NOTICE (R128). -/
def takeLineLost (s : State) : State :=
  match s.paths.tableToLines with
  | .lost :: rest => changeLines (linesTake s rest) fun _ st => endPulse st
  | _ => s

/-- LINE_LOST_NOTICE (R128). -/
def execLineLostNotice (s : State) : Host.Outcome State Fault Refusal := .next (takeLineLost s)

/-- LINE_RESTART_NOTICE (R129). -/
def takeLineRestart (s : State) : State :=
  match s.paths.tableToLines with
  | .restart :: rest => setLastStep (changeLines (linesTake s rest) fun _ st => endPulse st) none
  | _ => s

/-- LINE_RESTART_NOTICE (R129). -/
def execLineRestartNotice (s : State) : Host.Outcome State Fault Refusal := .next (takeLineRestart s)

/-- R130: each changed LINE entry is adopted and its line INACTIVE; the epoch is adopted. -/
def linesAdopt (s : State) (e : Epoch) : State :=
  { s with lines := { s.lines with
    entries := s.agent.staging.lines
    lines := Vector.ofFn fun n =>
      if s.lines.entries.get n = s.agent.staging.lines.get n then s.lines.lines.get n else .inactive
    epoch := e } }

/-- LINE_EPOCH_MARK (R130). -/
def takeLineMark (s : State) : State :=
  match s.paths.tableToLines with
  | .mark e :: rest => lineAck (linesAdopt (linesTake s rest) e) (.mark e)
  | _ => s

/-- LINE_EPOCH_MARK (R130). -/
def execLineEpochMark (s : State) : Host.Outcome State Fault Refusal := .next (takeLineMark s)

/-- LINE_NODE_RESET_NOTICE (R131). -/
def takeLineNodeReset (s : State) : State :=
  match s.paths.tableToLines with
  | .nodeReset :: rest => lineAck (setLastStep (allInactive (linesTake s rest)) none) .nodeReset
  | _ => s

/-- LINE_NODE_RESET_NOTICE (R131). -/
def execLineNodeResetNotice (s : State) : Host.Outcome State Fault Refusal := .next (takeLineNodeReset s)

end Sys2Proof.Machine
end

