-- ==== Sys2Proof/Machine/Reads.lean ====
section
/-! DEFINITION. READ (R184): what each area and block item answers. A READ takes its value at its service start and
changes nothing but the Agent's phase and its offered reply. -/

namespace Sys2Proof.Machine

/-- What a READ replies: result, value and aux. -/
structure Answer where
  result : Result
  value  : Word32
  aux    : Word32
  deriving DecidableEq, Repr

/-- R174: BADARG with value 0 and aux 0. -/
def badArg : Answer := { result := .badArg, value := 0, aux := 0 }

/-- OK with a value and aux 0. -/
def okValue (v : Word32) : Answer := { result := .ok, value := v, aux := 0 }

/-- R192: an item that may be absent: its round with aux 0, or 0 with aux 1. -/
def okRound (r : Option Round) : Answer :=
  match r with
  | some x => okValue x
  | none => { result := .ok, value := 0, aux := 1 }

/-- The same for a duration. -/
def okNumber (n : Option Nat) : Answer := okRound (n.map word)

/-- R193: a flag reads 1 when set and 0 when clear. -/
def okFlag (b : Bool) : Answer := okValue (word (boolCode b))

/-- R167: a field of a bank. -/
def answerBank (b : Bank) (q : Request) : Answer :=
  match readBank b q.table.toNat q.index.toNat q.field.toNat with
  | some v => okValue v
  | none => badArg

/-- R36: NOTHELD with the class of the round. -/
def notHeld (c : RoundClass) : Answer := { result := .notHeld, value := 0, aux := word (classCode c) }

/-- R36: one sample of the history. -/
def answerHistory (h : Store) (q : Request) : Answer :=
  match indexOf 16 q.index.toNat with
  | none => badArg
  | some ch =>
    match classify h q.value, heldRecord h q.value with
    | .held, some x =>
      match x.values.get ch with
      | some v => { result := .ok, value := signedWord v, aux := x.epoch.setWidth 32 }
      | none => notHeld .held
    | c, _ => notHeld c

/-- R37: an item of the History Store; the index is ignored. -/
def answerStateHistory (h : Store) (field : Nat) : Answer :=
  match field with
  | 0 => okValue (word h.ring.length)
  | 1 => okRound (oldestRound h)
  | 2 => okRound (newestRound h)
  | 3 => okRound h.spanStart
  | _ => badArg

/-- R57: k in QUALIFYING, 0 in the other states. -/
def qualifyCount (st : UnitState) : Nat :=
  match st with
  | .qualifying k => k
  | .idle => 0
  | .active => 0

/-- R57: an item of a condition unit. -/
def answerUnit (u : CondUnit) (field : Nat) : Answer :=
  match field with
  | 0 => okValue (word (unitStateCode u.state))
  | 1 => okValue (word (qualifyCount u.state))
  | 2 => okRound u.lastAssert
  | 3 => okRound u.lastRelease
  | 4 => okNumber u.lastDuration
  | 5 => okValue (word u.assertCount)
  | _ => badArg

/-- R57: an item of the unit the index names. -/
def answerStateCondition (v : Evaluator) (index field : Nat) : Answer :=
  match indexOf 16 index with
  | some i => answerUnit (v.units.get i) field
  | none => badArg

/-- R59: the holdoff base, present in HOLDOFF only. -/
def holdoffBase (st : EntryState) : Option Round :=
  match st with
  | .holdoff base => some base
  | .disarmed => none
  | .armed => none
  | .fired => none

/-- R85: an item of a trigger entry, or of the table. -/
def answerEntry (t : TriggerTable) (l : EntryLive) (field : Nat) : Answer :=
  match field with
  | 0 => okValue (word (entryStateCode l.state))
  | 1 => okValue (word l.fireCount)
  | 2 => okRound l.lastFire
  | 3 => okValue l.compare
  | 4 => okRound (holdoffBase l.state)
  | 5 => okFlag l.forceMark
  | 6 => okFlag t.held
  | 7 => okRound t.previousVerdict
  | _ => badArg

/-- R85: an item of the entry the index names. -/
def answerStateTrigger (t : TriggerTable) (index field : Nat) : Answer :=
  match indexOf 8 index with
  | some i => answerEntry t (t.live.get i) field
  | none => badArg

/-- R101, R117: what a READ sees of the engine: the state before an event whose pass is still waiting. -/
def engineView (g : Engine) : EngineView :=
  match g.pass with
  | some p => p.before
  | none => { windows := g.windows, held := g.held, nextId := g.nextId }

/-- R117: a per-window item; 0 with aux 1 for a position that holds no window. -/
def windowItem (w : Option Window) (f : Window → Word32) : Answer :=
  match w with
  | some x => okValue (f x)
  | none => { result := .ok, value := 0, aux := 1 }

/-- R117: an item of the position, or of the engine. -/
def answerWindow (v : EngineView) (w : Option Window) (field : Nat) : Answer :=
  match field with
  | 0 => windowItem w fun x => word (windowStateCode x.state)
  | 1 => windowItem w fun x => x.id.setWidth 32
  | 2 => windowItem w fun x => word x.entry.val
  | 3 => windowItem w fun x => x.trigger
  | 4 => windowItem w fun x => x.first
  | 5 => windowItem w fun x => x.last
  | 6 => windowItem w fun x => x.cursor
  | 7 => windowItem w fun x => (windowFlagsByte x.flags).setWidth 32
  | 8 => okFlag v.held
  | 9 => okValue (v.nextId.setWidth 32)
  | _ => badArg

/-- R117: an item of the window at a list position, 0 the oldest. -/
def answerStateWindow (v : EngineView) (index field : Nat) : Answer :=
  if index ≤ 5 then answerWindow v v.windows[index]? field else badArg

/-- R119: the pulse end, present while the line is pulsing. -/
def pulseEnd (st : LineState) : Option Round :=
  match st with
  | .pulsing e => some e
  | .levelled => none
  | .inactive => none

/-- R119: the logical state: ACTIVE or not. -/
def isLineActive (st : LineState) : Bool := decide (st ≠ .inactive)

/-- R132: an item of a line, or of the unit. -/
def answerLine (u : LineUnit) (n : Fin 8) (field : Nat) : Answer :=
  match field with
  | 0 => okFlag (isLineActive (u.lines.get n))
  | 1 => okRound (pulseEnd (u.lines.get n))
  | 2 => okValue (word (levelCode (pinLevel (u.entries.get n) (u.lines.get n) u.held)))
  | 3 => okFlag u.held
  | 4 => okRound u.lastStep
  | _ => badArg

/-- R132: an item of the line the index names. -/
def answerStateLine (u : LineUnit) (index field : Nat) : Answer :=
  match indexOf 8 index with
  | some n => answerLine u n field
  | none => badArg

/-- R150: the occupancy of a class, or the total. -/
def answerOccupancy (g : Egress) (index : Nat) : Answer :=
  match index with
  | 0 => okValue (word g.replies.length)
  | 1 => okValue (word g.events.length)
  | 2 => okValue (word g.windows.length)
  | 3 => okValue (word g.relays.length)
  | 4 => okValue (word g.lives.length)
  | 5 => okValue (word (occupancy g))
  | _ => badArg

/-- R150: an item of the Egress Queue. -/
def answerStateEgress (g : Egress) (index field : Nat) : Answer :=
  match field with
  | 0 => answerOccupancy g index
  | 1 => okValue (word g.credits)
  | 2 => okValue (g.nextSeq.setWidth 32)
  | 3 => okFlag g.sending.isSome
  | 4 => okValue (word g.liveLimit)
  | 5 => okValue (g.eventMask.setWidth 32)
  | _ => badArg

/-- R185: an item of the Agent; the index is ignored. -/
def answerStateAgent (s : State) (field : Nat) : Answer :=
  match field with
  | 0 => okValue (word (sessionCode s.agent.session))
  | 1 => okValue (word s.agent.leasePeriod)
  | 2 => okValue (word (leaseRemaining s))
  | 3 => okValue (s.agent.epoch.setWidth 32)
  | 4 => okValue (word s.agent.writeCount)
  | 5 => okValue (word s.agent.fifo.length)
  | 6 => okFlag s.agent.committing
  | _ => badArg

/-- Table 9-4: the counter with an index. -/
def counterAt (c : Counters) (index : Nat) : Option Word32 :=
  match index with
  | 0 => some c.streamBadCells
  | 1 => some c.controlBadCells
  | 2 => some c.roundsAssembled
  | 3 => some c.absentSamples
  | 4 => some c.straySamples
  | 5 => some c.malformedStreamCells
  | 6 => some c.roundsLost
  | 7 => some c.backwardRoundsRefused
  | 8 => some c.restarts
  | 9 => some c.liveDropped
  | 10 => some c.relayDropped
  | 11 => some c.eventsDropped
  | 12 => some c.cellsTransmitted
  | 13 => some c.windowsOpened
  | 14 => some c.windowsRefused
  | 15 => some c.windowsTruncated
  | 16 => some c.windowsExtended
  | 17 => some c.retriggersIgnored
  | 18 => some c.windowsDiscarded
  | 19 => some c.requestsDropped
  | 20 => some c.malformedRequests
  | _ => none

/-- R184: a counter. While a service pass is suspended, the engine's counters read with the rises made so far, although
a READ of WINDOW sees the engine before the event (notes/assumptions/23, DESIGN CHOICE). -/
def answerCounter (c : Counters) (index : Nat) : Answer :=
  match counterAt c index with
  | some v => okValue v
  | none => badArg

/-- R184: what a READ answers, by its area and block item; an unknown one is answered BADARG. -/
def answerRead (s : State) (q : Request) : Answer :=
  match readTargetOf q.area q.table with
  | some .active => answerBank s.agent.active q
  | some .staging => answerBank s.agent.staging q
  | some .history => answerHistory s.store q
  | some .counters => answerCounter s.counters q.index.toNat
  | some (.block .history) => answerStateHistory s.store q.field.toNat
  | some (.block .condition) => answerStateCondition s.evaluator q.index.toNat q.field.toNat
  | some (.block .trigger) => answerStateTrigger s.table q.index.toNat q.field.toNat
  | some (.block .window) => answerStateWindow (engineView s.engine) q.index.toNat q.field.toNat
  | some (.block .line) => answerStateLine s.lines q.index.toNat q.field.toNat
  | some (.block .egress) => answerStateEgress s.egress q.index.toNat q.field.toNat
  | some (.block .agent) => answerStateAgent s q.field.toNat
  | none => badArg

/-- The READ at the head of the FIFO is one for the given target. The table has no row for a READ of an unknown area
or block item, so any of the READ commands serves such a one (notes/assumptions/8). -/
def readsTarget (q : Request) (t : ReadTarget) : Bool :=
  match readTargetOf q.area q.table with
  | some x => decide (x = t)
  | none => true

/-- R184: service of a READ, where it is one for the given target. -/
def serveRead (t : ReadTarget) (s : State) (q : Request) : State :=
  if readsTarget q t then reply s q (answerRead s q).result (answerRead s q).value (answerRead s q).aux else s

/-- READ_ACTIVE (R167). -/
def execReadActive (s : State) : Host.Outcome State Fault Refusal := .next (serve s .read (serveRead .active))

/-- READ_STAGING (R167). -/
def execReadStaging (s : State) : Host.Outcome State Fault Refusal := .next (serve s .read (serveRead .staging))

/-- READ_HISTORY (R36). -/
def execReadHistory (s : State) : Host.Outcome State Fault Refusal := .next (serve s .read (serveRead .history))

/-- READ_STATE_HISTORY (R37). -/
def execReadStateHistory (s : State) : Host.Outcome State Fault Refusal :=
  .next (serve s .read (serveRead (.block .history)))

/-- READ_STATE_CONDITION (R57). -/
def execReadStateCondition (s : State) : Host.Outcome State Fault Refusal :=
  .next (serve s .read (serveRead (.block .condition)))

/-- READ_STATE_TRIGGER (R85). -/
def execReadStateTrigger (s : State) : Host.Outcome State Fault Refusal :=
  .next (serve s .read (serveRead (.block .trigger)))

/-- READ_STATE_WINDOW (R117). -/
def execReadStateWindow (s : State) : Host.Outcome State Fault Refusal :=
  .next (serve s .read (serveRead (.block .window)))

/-- READ_STATE_LINE (R132). -/
def execReadStateLine (s : State) : Host.Outcome State Fault Refusal :=
  .next (serve s .read (serveRead (.block .line)))

/-- READ_STATE_EGRESS (R150). -/
def execReadStateEgress (s : State) : Host.Outcome State Fault Refusal :=
  .next (serve s .read (serveRead (.block .egress)))

/-- READ_STATE_AGENT (R185). -/
def execReadStateAgent (s : State) : Host.Outcome State Fault Refusal :=
  .next (serve s .read (serveRead (.block .agent)))

/-- READ_COUNTERS (R184). -/
def execReadCounters (s : State) : Host.Outcome State Fault Refusal := .next (serve s .read (serveRead .counters))

end Sys2Proof.Machine
end

