-- ==== Sys2Proof/Machine/Trigger.lean ====
section
/-! DEFINITION. The Trigger Table (Chapter 4). -/

namespace Sys2Proof.Machine

/-! ## Handling a verdict -/

/-- R62: the state of an entry after the holdoff step at round `r`. -/
def afterHoldoff (e : TriggerEntry) (st : EntryState) (r : Round) : EntryState :=
  match st with
  | .holdoff base => if e.holdoff < distance base r then .armed else .holdoff base
  | .disarmed => .disarmed
  | .armed => .armed
  | .fired => .fired

/-- R63: every source channel is active. -/
def allActive (sources active : ChannelMask) : Bool := sources &&& ~~~active == 0

/-- R64: the ref entry's last fire round lies 1 to W rounds before `r`. -/
def withinWindow (lastFire : Option Round) (r : Round) (w : Nat) : Bool :=
  match lastFire with
  | none => false
  | some f => decide (1 ≤ distance f r) && decide (distance f r ≤ w)

/-- R65: a released pair of a source channel with a duration within the width limits. -/
def widthMatches (e : TriggerEntry) (p : Fin 16 × Nat) : Bool :=
  hasChannel e.sources p.1 && decide (e.widthMin ≤ p.2) && decide (p.2 ≤ e.widthMax)

/-- R66: the schedule test of the current compare `c`. -/
def scheduleDue (c : Round) (previous : Option Round) (r : Round) : Bool :=
  match previous with
  | some p => crossed c p r
  | none => c == r

/-- R63 to R66: the test of an ARMED entry; `snapshot` holds every entry's last fire round as the verdict was taken
(R61), `previous` the previous verdict round. -/
def entryTest (e : TriggerEntry) (l : EntryLive) (snapshot : Vector EntryLive 8) (previous : Option Round) (v : Verdict) : Bool :=
  match e.combine with
  | .any => meets v.asserted e.sources
  | .all => decide (e.sources ≠ 0) && allActive e.sources v.active && meets v.asserted e.sources
  | .after => meets v.asserted e.sources && withinWindow (snapshot.get e.refEntry).lastFire v.round e.within
  | .width => v.released.any (widthMatches e)
  | .schedule => scheduleDue l.compare previous v.round

/-- R68: the state after a fire at round `r`, from the state after the holdoff step. -/
def stateAfterFire (e : TriggerEntry) (st : EntryState) (r : Round) : EntryState :=
  match st with
  | .armed =>
    match e.policy with
    | .single => .fired
    | .repeating => if e.holdoff = 0 then .armed else .holdoff r
  | .disarmed => .disarmed
  | .holdoff base => .holdoff base
  | .fired => .fired

/-- R69: how often a fire at round `r` adds the interval to the current compare. -/
def advances (e : TriggerEntry) (c r : Round) : Nat :=
  if e.combine = .schedule ∧ 0 < e.interval then scheduleAdditions c r e.interval else 0

/-- R69: the current compare after a fire at round `r`. -/
def compareAfter (e : TriggerEntry) (c r : Round) : Round := roundsAfter c (advances e c r * e.interval)

/-- R69: the missed count of a fire at round `r`. -/
def missedCount (e : TriggerEntry) (c r : Round) : Nat := advances e c r - 1

/-- R69, R72: the events of a fire of entry `i`: SCHEDULE_SLIP for missed periods, then TRIGGER_FIRED. -/
def fireEvents (i : Fin 8) (e : TriggerEntry) (c r : Round) (count : Nat) (forced : Bool) : List EventCell :=
  (if missedCount e c r = 0 then [] else
    [{ code := .scheduleSlip, round := some r, a := word i.val, b := word (missedCount e c r), forced := forced }]) ++
  (if e.event then
    [{ code := .triggerFired, round := some r, a := word i.val, b := word count, forced := forced }] else [])

/-- R70: the open request of a fire. -/
def fireOpens (i : Fin 8) (e : TriggerEntry) (r : Round) : List OpenRequest :=
  match e.profile with
  | none => []
  | some k => [{ entry := i, round := r, profile := k }]

/-- R71: the line action of a fire. -/
def fireLines (e : TriggerEntry) : List LineOp :=
  match e.line with
  | none => []
  | some n => [{ line := n, action := e.lineAction, length := e.pulseLength }]

/-- What one entry does in one verdict. -/
structure EntryResult where
  live   : EntryLive
  opens  : List OpenRequest
  lines  : List LineOp
  events : List EventCell
  chain  : EntryMask
  deriving DecidableEq, Repr

/-- R68: an entry fires at round `r`. -/
def fireEntry (i : Fin 8) (e : TriggerEntry) (l : EntryLive) (r : Round) (forced : Bool) : EntryResult :=
  { live :=
      { state := stateAfterFire e l.state r
        fireCount := raiseCount l.fireCount
        lastFire := some r
        compare := compareAfter e l.compare r
        forceMark := false }
    opens := fireOpens i e r
    lines := fireLines e
    events := fireEvents i e l.compare r (raiseCount l.fireCount) forced
    chain := e.chainMask }

/-- R61, step 2: the holdoff step, the test, the forced-fire step (R67) and the fire of entry `i`. -/
def handleEntry (i : Fin 8) (e : TriggerEntry) (l : EntryLive) (snapshot : Vector EntryLive 8) (previous : Option Round)
    (v : Verdict) : EntryResult :=
  let m := { l with state := afterHoldoff e l.state v.round }
  if l.forceMark || (decide (m.state = .armed) && entryTest e m snapshot previous v) then
    fireEntry i e m v.round l.forceMark
  else { live := m, opens := [], lines := [], events := [], chain := 0 }

/-- The eight entries in one verdict, each against the same snapshot. -/
def entryResults (t : TriggerTable) (v : Verdict) : Vector EntryResult 8 :=
  Vector.ofFn fun i => handleEntry i (t.entries.get i) (t.live.get i) t.live t.previousVerdict v

/-- The entries named by the chain masks of the fires (R73). -/
def chained (rs : Vector EntryResult 8) (i : Fin 8) : Bool :=
  (List.finRange 8).any fun j => hasEntry (rs.get j).chain i

/-- R73, R75: arming: a DISARMED or FIRED entry becomes ARMED, others are unchanged. -/
def armState (st : EntryState) : EntryState :=
  match st with
  | .disarmed => .armed
  | .fired => .armed
  | .armed => .armed
  | .holdoff base => .holdoff base

/-- Arming an entry. -/
def armEntry (l : EntryLive) : EntryLive := { l with state := armState l.state }

/-- The results in entry index order, joined. -/
def gather {α : Type} (rs : Vector EntryResult 8) (f : EntryResult → List α) : List α :=
  (List.finRange 8).flatMap fun i => f (rs.get i)

/-- R61: a verdict is handled whole. -/
def handleVerdict (s : State) (v : Verdict) : State :=
  let rs := entryResults s.table v
  let t := { s with table := { s.table with
    live := Vector.ofFn fun i => if chained rs i then armEntry (rs.get i).live else (rs.get i).live
    previousVerdict := some v.round } }
  let u := toEngine t ((gather rs EntryResult.opens).map .request)
  let w := toLines u (.step { round := v.round, actions := gather rs EntryResult.lines })
  { w with paths := { w.paths with tableOffers := w.paths.tableOffers ++ gather rs EntryResult.events } }

/-- The Trigger Table has taken the front of its input path. -/
def tableTakes (s : State) (rest : List VerdictItem) : State :=
  { s with paths := { s.paths with evaluatorToTable := rest } }

/-- VERDICT (R61 to R73). -/
def takeVerdict (s : State) : State :=
  match s.paths.evaluatorToTable with
  | .verdict v :: rest => handleVerdict (tableTakes s rest) v
  | _ => s

/-- VERDICT (R61 to R73). -/
def execVerdict (s : State) : Host.Outcome State Fault Refusal := .next (takeVerdict s)

/-! ## Direct notices -/

/-- Each entry becomes `f` of what it was, with its index. -/
def changeEntries (s : State) (f : Fin 8 → EntryLive → EntryLive) : State :=
  { s with table := { s.table with live := Vector.ofFn fun i => f i (s.table.live.get i) } }

/-- R76, R78, R80: an entry is disarmed and its force mark cleared. -/
def disarmEntry (l : EntryLive) : EntryLive := { l with state := .disarmed, forceMark := false }

/-- The Trigger Table has taken the front of its direct notices. -/
def tableTakesNotice (s : State) (rest : List TriggerNotice) : State :=
  { s with paths := { s.paths with agentToTable := rest } }

/-- R74: while held the notice is refused; otherwise `act` is done. Either way the acknowledgement carries the
previous verdict round. -/
def answerNotice (s : State) (act : State → State) : State :=
  tableAck (if s.table.held then s else act s) { refused := s.table.held, round := s.table.previousVerdict }

/-- ARM_NOTICE (R74, R75). -/
def takeArmNotice (s : State) : State :=
  match s.paths.agentToTable with
  | .arm m :: rest =>
    answerNotice (tableTakesNotice s rest) fun t => changeEntries t fun i l => if hasEntry m i then armEntry l else l
  | _ => s

/-- ARM_NOTICE (R74, R75). -/
def execArmNotice (s : State) : Host.Outcome State Fault Refusal := .next (takeArmNotice s)

/-- DISARM_NOTICE (R74, R76). -/
def takeDisarmNotice (s : State) : State :=
  match s.paths.agentToTable with
  | .disarm m :: rest =>
    answerNotice (tableTakesNotice s rest) fun t => changeEntries t fun i l => if hasEntry m i then disarmEntry l else l
  | _ => s

/-- DISARM_NOTICE (R74, R76). -/
def execDisarmNotice (s : State) : Host.Outcome State Fault Refusal := .next (takeDisarmNotice s)

/-- FIRE_NOTICE (R74, R77). -/
def takeFireNotice (s : State) : State :=
  match s.paths.agentToTable with
  | .fire j :: rest =>
    answerNotice (tableTakesNotice s rest) fun t =>
      changeEntries t fun i l => if i = j then { l with forceMark := true } else l
  | _ => s

/-- FIRE_NOTICE (R74, R77). -/
def execFireNotice (s : State) : Host.Outcome State Fault Refusal := .next (takeFireNotice s)

/-- The held flag of the Trigger Table. -/
def setTableHeld (s : State) (b : Bool) : State := { s with table := { s.table with held := b } }

/-- TRIGGER_SAFE_STATE (R78). -/
def takeTriggerSafeState (s : State) : State :=
  match s.paths.agentToTable with
  | .safeState :: rest => setTableHeld (changeEntries (tableTakesNotice s rest) fun _ l => disarmEntry l) true
  | _ => s

/-- TRIGGER_SAFE_STATE (R78). -/
def execTriggerSafeState (s : State) : Host.Outcome State Fault Refusal := .next (takeTriggerSafeState s)

/-- TRIGGER_SESSION_OPEN (R79). -/
def takeTriggerSessionOpen (s : State) : State :=
  match s.paths.agentToTable with
  | .sessionOpen :: rest => setTableHeld (tableTakesNotice s rest) false
  | _ => s

/-- TRIGGER_SESSION_OPEN (R79). -/
def execTriggerSessionOpen (s : State) : Host.Outcome State Fault Refusal := .next (takeTriggerSessionOpen s)

/-- TRIGGER_CLOSE (R80). -/
def takeTriggerClose (s : State) : State :=
  match s.paths.agentToTable with
  | .close :: rest => changeEntries (tableTakesNotice s rest) fun _ l => disarmEntry l
  | _ => s

/-- TRIGGER_CLOSE (R80). -/
def execTriggerClose (s : State) : Host.Outcome State Fault Refusal := .next (takeTriggerClose s)

/-! ## Stream notices, marks and node reset -/

/-- R81: what RESTART does to an entry. -/
def entryAtRestart (l : EntryLive) : EntryLive :=
  { l with
    state := match l.state with
      | .holdoff _ => .armed
      | .disarmed => .disarmed
      | .armed => .armed
      | .fired => .fired
    lastFire := none }

/-- The previous verdict round becomes absent. -/
def clearPreviousVerdict (s : State) : State := { s with table := { s.table with previousVerdict := none } }

/-- TRIGGER_RESTART_NOTICE (R81). -/
def takeTriggerRestart (s : State) : State :=
  match s.paths.evaluatorToTable with
  | .restart :: rest =>
    toLines (clearPreviousVerdict (changeEntries (tableTakes s rest) fun _ l => entryAtRestart l)) .restart
  | _ => s

/-- TRIGGER_RESTART_NOTICE (R81). -/
def execTriggerRestartNotice (s : State) : Host.Outcome State Fault Refusal := .next (takeTriggerRestart s)

/-- TRIGGER_LOST_NOTICE (R82). -/
def takeTriggerLost (s : State) : State :=
  match s.paths.evaluatorToTable with
  | .lost :: rest => toLines (tableTakes s rest) .lost
  | _ => s

/-- TRIGGER_LOST_NOTICE (R82). -/
def execTriggerLostNotice (s : State) : Host.Outcome State Fault Refusal := .next (takeTriggerLost s)

/-- R83: the live state of an entry that is changed at a mark. -/
def adoptedEntry (e : TriggerEntry) (held : Bool) : EntryLive :=
  { state := if e.armAtCommit && !held then .armed else .disarmed
    fireCount := 0, lastFire := none, compare := e.compare, forceMark := false }

/-- R83: each changed TRIGGER entry is adopted and its live state reset; the epoch is adopted. -/
def tableAdopts (s : State) (e : Epoch) : State :=
  { s with table := { s.table with
    entries := s.agent.staging.triggers
    live := Vector.ofFn fun i =>
      if s.table.entries.get i = s.agent.staging.triggers.get i then s.table.live.get i
      else adoptedEntry (s.agent.staging.triggers.get i) s.table.held
    epoch := e } }

/-- TRIGGER_EPOCH_MARK (R83). -/
def takeTriggerMark (s : State) : State :=
  match s.paths.evaluatorToTable with
  | .mark e :: rest => toLines (toEngine (tableAdopts (tableTakes s rest) e) [.mark e]) (.mark e)
  | _ => s

/-- TRIGGER_EPOCH_MARK (R83). -/
def execTriggerEpochMark (s : State) : Host.Outcome State Fault Refusal := .next (takeTriggerMark s)

/-- R84: what a node reset does to an entry. -/
def entryAtNodeReset (e : TriggerEntry) : EntryLive :=
  { state := .disarmed, fireCount := 0, lastFire := none, compare := e.compare, forceMark := false }

/-- TRIGGER_NODE_RESET_NOTICE (R84). -/
def takeTriggerNodeReset (s : State) : State :=
  match s.paths.evaluatorToTable with
  | .nodeReset :: rest =>
    let t := clearPreviousVerdict (changeEntries (tableTakes s rest) fun i _ => entryAtNodeReset (s.table.entries.get i))
    toLines (toEngine t [.nodeReset]) .nodeReset
  | _ => s

/-- TRIGGER_NODE_RESET_NOTICE (R84). -/
def execTriggerNodeResetNotice (s : State) : Host.Outcome State Fault Refusal := .next (takeTriggerNodeReset s)

end Sys2Proof.Machine
end

