-- ==== Sys2Proof/Machine/Service.lean ====
section
/-! DEFINITION. The Window Engine's service pass (R101 to R109) and the Egress Queue's steps that answer its offers
(R138). A pass runs after every event the engine takes. It stops at each offer it makes, holds the engine's
attention until the Egress Queue has taken the offer, and goes on from there (notes/assumptions/5). -/

namespace Sys2Proof.Machine

/-! ## Windows -/

/-- A window in OPEN or DRAINING. -/
def inProgress (w : Window) : Bool := decide (w.state = .opened) || decide (w.state = .draining)

/-- The cursor is at or before L. -/
def hasRounds (w : Window) : Bool := atOrAfter w.last w.cursor

/-- R88: the number of rounds from `f` to `l` inclusive: the forward distance plus 1, or 0 when `l` is before `f`. -/
def roundsFrom (f l : Round) : Nat := if atOrAfter l f then distance f l + 1 else 0

/-- The rounds from the cursor to L inclusive; 0 when the cursor is after L. -/
def remaining (w : Window) : Nat := if hasRounds w then distance w.cursor w.last + 1 else 0

/-- R109: a DRAINING window whose cursor is after L becomes CLOSING. -/
def closeIfDone (w : Window) : Window :=
  if w.state = .draining ∧ isAfter w.cursor w.last then { w with state := .closing } else w

/-- R109: a window becomes DRAINING, and closes at once if its cursor is already after L. -/
def drain (w : Window) : Window := closeIfDone { w with state := .draining }

/-- Sets TRUNCATED. -/
def markTruncated (w : Window) : Window := { w with flags := { w.flags with truncated := true } }

/-- Sets ABORTED. -/
def markAborted (w : Window) : Window := { w with flags := { w.flags with aborted := true } }

/-- Every window becomes `f` of what it was. -/
def mapWindows (s : State) (f : Window → Window) : State :=
  { s with engine := { s.engine with windows := s.engine.windows.map f } }

/-- The window with the given id becomes `f` of what it was. -/
def updateWindow (s : State) (id : WindowId) (f : Window → Window) : State :=
  mapWindows s fun w => if w.id = id then f w else w

/-- Windows leave the list without cells, counted in *windows discarded* (R102, R112, R115). -/
def discardWindows (s : State) (gone : Window → Bool) : State :=
  { s with
    engine := { s.engine with windows := s.engine.windows.filter fun w => !gone w }
    counters := { s.counters with
      windowsDiscarded := raise s.counters.windowsDiscarded (s.engine.windows.filter gone).length } }

/-- R116: *windows truncated* rises by the windows that set TRUNCATED for the first time. -/
def countTruncated (s : State) (now : Window → Bool) : State :=
  { s with counters := { s.counters with
      windowsTruncated := raise s.counters.windowsTruncated
        (s.engine.windows.filter fun w => now w && !w.flags.truncated).length } }

/-! ## Skips (R103, R104) -/

/-- R103: the window is behind. -/
def isBehind (h : Store) (w : Window) : Bool :=
  inProgress w && hasRounds w && decide (classify h w.cursor = .behind)

/-- R103: a behind window moves its cursor to the store's oldest round, or past L. -/
def settleBehind (h : Store) (w : Window) : Window :=
  match oldestRound h with
  | none => w
  | some o =>
    if atOrAfter w.last o then markTruncated { w with lost := w.lost + distance w.cursor o, cursor := o }
    else markTruncated { w with lost := w.lost + remaining w, cursor := roundsAfter w.last 1 }

/-- The forward distance from `r` to the nearest record held at or after it. -/
def nextHeld (h : Store) (r : Round) : Nat := (h.ring.map fun x => distance r x.round).foldl min (2 ^ 32)

/-- R104: the gap rounds from the cursor on, up to the next held round or past L. -/
def gapLength (h : Store) (w : Window) : Nat := min (nextHeld h w.cursor) (remaining w)

/-- R104: the cursor stands on a gap round of the window. -/
def isOnGap (h : Store) (w : Window) : Bool :=
  inProgress w && hasRounds w && decide (classify h w.cursor = .gap)

/-- R104: the cursor skips the gap rounds it stands on, each counted lost. -/
def skipGap (h : Store) (w : Window) : Window :=
  { w with lost := w.lost + gapLength h w, cursor := roundsAfter w.cursor (gapLength h w),
           flags := { w.flags with gap := true } }

/-- R101, step 2, for one window: R103 or R104, and R109 if the cursor has moved. A behind window's new cursor round
is the oldest round held or lies past L, so no gap follows it. -/
def settleSkip (h : Store) (w : Window) : Window :=
  if isBehind h w then closeIfDone (settleBehind h w)
  else if isOnGap h w then closeIfDone (skipGap h w)
  else w

/-- R101, step 2: the skips of every window in progress. -/
def settleSkips (s : State) : State :=
  mapWindows (countTruncated s (isBehind s.store)) (settleSkip s.store)

/-! ## Ready windows (R105 to R107) -/

/-- R107: the group of a round: one WIN_SAMPLE for each channel in the profile copy's mask and the record's present
mask, in ascending channel order. -/
def groupOf (w : Window) (x : Record) : List WinSample :=
  (channelsOf w.mask).filterMap fun i =>
    (x.values.get i).map fun v => { id := w.id, round := x.round, channel := i, value := v, complete := x.complete }

/-- R105: head ready. -/
def headReady (s : State) (w : Window) : Bool :=
  inProgress w && !w.headSent && decide (occupancyOf s < Config.dataLimit)

/-- R105: the group to emit is empty or fits within 240. -/
def groupFits (s : State) (g : List WinSample) : Bool :=
  g.isEmpty || decide (occupancyOf s + g.length ≤ Config.dataLimit)

/-- R105: the cursor is at or before the frontier, which is present. -/
def withinFrontier (s : State) (w : Window) : Bool :=
  match s.engine.frontier with
  | none => false
  | some f => atOrAfter f w.cursor

/-- R105: the record a round-ready window would emit, with its group; none when the window is not round ready. -/
def roundReady (s : State) (w : Window) : Option (List WinSample) :=
  if inProgress w && w.headSent && hasRounds w && withinFrontier s w && decide (classify s.store w.cursor = .held) then
    match heldRecord s.store w.cursor with
    | some x => if groupFits s (groupOf w x) then some (groupOf w x) else none
    | none => none
  else none

/-- R105: the window is ready. -/
def isReady (s : State) (w : Window) : Bool := headReady s w || (roundReady s w).isSome

/-- The element with the smallest key; of equal keys, the one earlier in the list. -/
def firstLeast {α : Type} (key : α → Nat) : List α → Option α
  | [] => none
  | x :: xs =>
    match firstLeast key xs with
    | none => some x
    | some y => if key x ≤ key y then some x else some y

/-- R105: the ready window to serve: the smallest forward distance from span start to its cursor; without a span
start, the first in the list. -/
def pickReady (s : State) : Option Window :=
  let ready := s.engine.windows.filter (isReady s)
  match s.store.spanStart with
  | some p => firstLeast (fun w => distance p w.cursor) ready
  | none => ready.head?

/-- R106: the WIN_HEAD of a window. -/
def headOf (w : Window) : WinHead :=
  { id := w.id, entry := w.entry, profile := w.profile, trigger := w.trigger, first := w.first, last := w.last,
    mask := w.mask }

/-- R110: the WIN_TAIL of a window. -/
def tailOf (w : Window) : WinTail :=
  { id := w.id, last := w.last, emitted := w.emitted, cells := w.cells, lost := w.lost, flags := w.flags }

/-- R107, R109: the cursor round has been emitted with `k` cells. -/
def emitted (k : Nat) (w : Window) : Window :=
  closeIfDone { w with emitted := w.emitted + 1, cells := w.cells + k, cursor := roundsAfter w.cursor 1 }

/-! ## The pass -/

/-- The pass is over, and with it the event: an acknowledgement that is due is sent, and the engine is free for its next
event. -/
def endPass (s : State) : State :=
  { s with
    engine := { s.engine with pass := none, ackDue := none }
    paths := { s.paths with engineAcks := s.paths.engineAcks ++ s.engine.ackDue.toList } }

/-- The pass stands at a stage. -/
def setStage (s : State) (p : Pass) (st : PassStage) : State :=
  { s with engine := { s.engine with pass := some { p with stage := st } } }

/-- R101: the service pass, up to its next offer or its end. Each turn settles one CLOSING window (R102), or settles
the skips, or serves one ready window (R105). `fuel` bounds the turns; `passFuel` is always enough
(Laws/Service.lean, `runPass_stops`). -/
def runPass : Nat → State → State
  | 0, s => s
  | fuel + 1, s =>
    match s.engine.pass with
    | none => s
    | some p =>
      match s.engine.windows.find? (fun w => decide (w.state = .closing)) with
      | some w =>
        if w.headSent then engineOffer s (.tail (tailOf w))
        else runPass fuel (discardWindows s fun x => decide (x = w))
      | none =>
        match p.stage with
        | .settling =>
          if s.engine.balance = 0 then runPass fuel (setStage (settleSkips s) p .serving) else endPass s
        | .serving =>
          match pickReady s with
          | none => endPass s
          | some w =>
            match roundReady s w with
            | none => engineOffer s (.head (headOf w))
            | some [] => runPass fuel (updateWindow s w.id (emitted 0))
            | some g => engineOffer s (.group g)

/-- Turns enough for any pass: one for each window, one for each round left to a window, and two. -/
def passFuel (s : State) : Nat :=
  s.engine.windows.length + (s.engine.windows.map remaining).sum + 3

/-- The pass goes on. -/
def resumePass (s : State) : State := runPass (passFuel s) s

/-- What a READ sees of the engine (R117). -/
def viewOf (s : State) : EngineView :=
  { windows := s.engine.windows, held := s.engine.held, nextId := s.engine.nextId }

/-- R101: an event `act` of the engine, and the service pass it ends with. -/
def engineEvent (s : State) (act : State → State) : State :=
  let t := act s
  resumePass { t with engine := { t.engine with pass := some { stage := .settling, before := viewOf s } } }

/-! ## The Egress Queue answers (R138) -/

/-- The Egress Queue has taken the front of the engine's offers. -/
def queueTakesEngine (s : State) (rest : List EngineOffer) : State :=
  { s with paths := { s.paths with engineOffers := rest } }

/-- WIN_HEAD_OFFER (R106, R108, R138). -/
def takeWinHead (s : State) : State :=
  match s.paths.engineOffers with
  | .head h :: rest =>
    let t := queueTakesEngine s rest
    if occupancyOf s < Config.dataLimit then
      resumePass (updateWindow (admitWindow t [.head h]) h.id fun w => { w with headSent := true })
    else endPass t
  | _ => s

/-- WIN_HEAD_OFFER (R106, R108, R138). -/
def execWinHeadOffer (s : State) : Host.Outcome State Fault Refusal := .next (takeWinHead s)

/-- R107: the window of a group counts its round as emitted. -/
def groupEmitted (s : State) (g : List WinSample) : State :=
  match g with
  | [] => s
  | x :: _ => updateWindow s x.id (emitted g.length)

/-- WIN_SAMPLE_GROUP_OFFER (R107, R108, R138). -/
def takeWinGroup (s : State) : State :=
  match s.paths.engineOffers with
  | .group g :: rest =>
    let t := queueTakesEngine s rest
    if occupancyOf s + g.length ≤ Config.dataLimit then
      resumePass (groupEmitted (admitWindow t (g.map .sample)) g)
    else endPass t
  | _ => s

/-- WIN_SAMPLE_GROUP_OFFER (R107, R108, R138). -/
def execWinSampleGroupOffer (s : State) : Host.Outcome State Fault Refusal := .next (takeWinGroup s)

/-- WIN_TAIL_OFFER (R102, R138): always admitted, and the window becomes CLOSED. -/
def takeWinTail (s : State) : State :=
  match s.paths.engineOffers with
  | .tail x :: rest =>
    resumePass (updateWindow (admitWindow (queueTakesEngine s rest) [.tail x]) x.id fun w => { w with state := .closed })
  | _ => s

/-- WIN_TAIL_OFFER (R102, R138). -/
def execWinTailOffer (s : State) : Host.Outcome State Fault Refusal := .next (takeWinTail s)

end Sys2Proof.Machine
end

