-- ==== Sys2Proof/Machine/Windows.lean ====
section
/-! DEFINITION. The events the Window Engine takes (Chapter 5). While a service pass waits for the Egress Queue the
engine takes no other event. -/

namespace Sys2Proof.Machine

/-- The engine takes an event from the Trigger Table's path: `f` of the front item and of the state without it,
where that item is one for this command. -/
def onTablePath (s : State) (f : EngineItem → Option (State → State)) : State :=
  match s.engine.pass, s.paths.tableToEngine with
  | none, x :: rest =>
    match f x with
    | some act => engineEvent { s with paths := { s.paths with tableToEngine := rest } } act
    | none => s
  | _, _ => s

/-- The same for the History Store's path. -/
def onStorePath (s : State) (f : StoreNotice → Option (State → State)) : State :=
  match s.engine.pass, s.paths.storeToEngine with
  | none, x :: rest =>
    match f x with
    | some act => engineEvent { s with paths := { s.paths with storeToEngine := rest } } act
    | none => s
  | _, _ => s

/-- The same for the Egress Queue's path. -/
def onQueuePath (s : State) (f : QueueNotice → Option (State → State)) : State :=
  match s.engine.pass, s.paths.queueToEngine with
  | none, x :: rest =>
    match f x with
    | some act => engineEvent { s with paths := { s.paths with queueToEngine := rest } } act
    | none => s
  | _, _ => s

/-- The same for the Agent's direct notices. -/
def onAgentPath (s : State) (f : EngineNotice → Option (State → State)) : State :=
  match s.engine.pass, s.paths.agentToEngine with
  | none, x :: rest =>
    match f x with
    | some act => engineEvent { s with paths := { s.paths with agentToEngine := rest } } act
    | none => s
  | _, _ => s

/-! ## Open requests -/

/-- R94: the round of a WINDOW_REFUSED event: the later of T and the frontier. -/
def refusalRound (s : State) (t : Round) : Round :=
  match s.engine.frontier with
  | none => t
  | some f => later t f

/-- R94: an open request is refused; the reason is 1 for HELD and 2 for FULL (R190). -/
def refuseOpen (s : State) (q : OpenRequest) (reason : Nat) : State :=
  engineOffer
    { s with counters := { s.counters with windowsRefused := raise s.counters.windowsRefused 1 } }
    (.event { code := .windowRefused, round := some (refusalRound s q.round), a := word q.entry.val, b := word reason,
              forced := false })

/-- R90: an OPEN window of the same entry and profile. -/
def isMatch (q : OpenRequest) (w : Window) : Bool :=
  decide (w.state = .opened) && decide (w.entry = q.entry) && decide (w.profile = q.profile)

/-- R91: the candidate of an extension: the earlier of T + Q and F + X - 1, with the window's own profile copy. -/
def extendCandidate (w : Window) (t : Round) : Round :=
  earlier (roundsAfter t w.post) (roundsBefore (roundsAfter w.first w.limit) 1)

/-- A retrigger that changes no window (R91, R92). -/
def ignoreRetrigger (s : State) : State :=
  { s with counters := { s.counters with retriggersIgnored := raise s.counters.retriggersIgnored 1 } }

/-- R91: a retrigger under EXTEND. -/
def extendWindow (s : State) (w : Window) (t : Round) : State :=
  if isAfter (extendCandidate w t) w.last then
    updateWindow { s with counters := { s.counters with windowsExtended := raise s.counters.windowsExtended 1 } } w.id
      fun x => { x with last := extendCandidate w t, flags := { x.flags with extended := true } }
  else ignoreRetrigger s

/-- R87: the first id from `id` on that no window of the list holds; `n` bounds the rises. -/
def freeId (ws : List Window) : Nat → WindowId → WindowId
  | 0, id => id
  | n + 1, id => if ws.any fun w => decide (w.id = id) then freeId ws n (id + 1) else id

/-- R93, step 2: the span start the engine reads; absent, without a read, while the reset balance is not 0. -/
def spanStartRead (s : State) : Option Round := if s.engine.balance = 0 then s.store.spanStart else none

/-- R93, step 2: the first round. -/
def firstRound (span : Option Round) (t : Round) (pre : Nat) : Round :=
  match span with
  | none => t
  | some p =>
    if !atOrAfter t p then t
    else if atOrAfter (roundsBefore t pre) p then roundsBefore t pre
    else p

/-- R93: the new window, before step 3. -/
def freshWindow (s : State) (q : OpenRequest) (id : WindowId) : Window :=
  let k := s.engine.profiles.get q.profile
  let f := firstRound (spanStartRead s) q.round k.pre
  { id := id, entry := q.entry, profile := q.profile, pre := k.pre, post := k.post, mask := k.mask, limit := k.limit,
    trigger := q.round, first := f, last := roundsAfter q.round k.post, cursor := f, headSent := false, state := .opened,
    flags := newFlags (decide (f ≠ roundsBefore q.round k.pre)), emitted := 0, cells := 0, lost := 0 }

/-- R93, step 3: the last round and the state of a new window. Under the lost flag with no frontier the earlier of L0
and the frontier is L0 (notes/assumptions/20, DEDUCED). With a frontier before F, L lies before F
(notes/assumptions/17, DEDUCED). -/
def placedWindow (s : State) (w : Window) : Window :=
  match s.engine.frontier with
  | none => if s.engine.lostFlag then drain { w with flags := { w.flags with streamLost := true } } else w
  | some f =>
    if atOrAfter f w.last then drain w
    else if s.engine.lostFlag then
      drain { w with last := earlier w.last f, flags := { w.flags with streamLost := true } }
    else w

/-- R93: creates a window, or refuses with FULL. -/
def createWindow (s : State) (q : OpenRequest) : State :=
  if Config.windowSlots ≤ s.engine.windows.length then refuseOpen s q 2
  else
    let id := freeId s.engine.windows s.engine.windows.length s.engine.nextId
    { s with
      engine := { s.engine with
        windows := s.engine.windows ++ [placedWindow s (freshWindow s q id)]
        nextId := id + 1 }
      counters := { s.counters with windowsOpened := raise s.counters.windowsOpened 1 } }

/-- R90: an open request is taken. -/
def takeOpen (q : OpenRequest) (s : State) : State :=
  if s.engine.held then refuseOpen s q 1
  else
    match (s.engine.profiles.get q.profile).overlap, (s.engine.windows.filter (isMatch q)).getLast? with
    | .extend, some w => extendWindow s w q.round
    | .ignore, some _ => ignoreRetrigger s
    | .separate, _ => createWindow s q
    | .extend, none => createWindow s q
    | .ignore, none => createWindow s q

/-- OPEN_REQUEST (R90 to R94). -/
def execOpenRequest (s : State) : Host.Outcome State Fault Refusal :=
  .next (onTablePath s fun x => match x with
    | .request q => some (takeOpen q)
    | .mark _ => none
    | .nodeReset => none)

/-! ## Following the store -/

/-- R95: a stored notice for round `r`; without effect while the reset balance is positive. -/
def takeStored (r : Round) (s : State) : State :=
  if 0 < s.engine.balance then s
  else
    mapWindows { s with engine := { s.engine with frontier := some r, lostFlag := false } } fun w =>
      if w.state = .opened ∧ atOrAfter r w.last then drain w else w

/-- STORED_NOTICE (R95). -/
def execStoredNotice (s : State) : Host.Outcome State Fault Refusal :=
  .next (onStorePath s fun x => match x with
    | .stored r => some (takeStored r)
    | .overwritten _ => none
    | .flushedRestart => none
    | .flushedNodeReset => none
    | .lost _ => none)

/-- OVERWRITTEN_NOTICE (R96): no state changes, and a service pass runs. -/
def execOverwrittenNotice (s : State) : Host.Outcome State Fault Refusal :=
  .next (onStorePath s fun x => match x with
    | .overwritten _ => some id
    | .stored _ => none
    | .flushedRestart => none
    | .flushedNodeReset => none
    | .lost _ => none)

/-- The rounds that the cursor of `w` has passed and that lie after `l`, a new last round. -/
def passedBeyond (w : Window) (l : Round) : Nat := distance w.first w.cursor - roundsFrom w.first l

/-- R97: L becomes `l`, STREAM_LOST is set, and the window becomes DRAINING. Rounds after `l` that skips had already
counted lost are no longer the window's rounds, and leave its rounds lost, so that rounds emitted plus rounds lost is
the window length at the tail (R88, R110). R97 does not say what becomes of them (notes/assumptions/21, DEDUCED). -/
def shortenWindow (l : Round) (w : Window) : Window :=
  drain { w with last := l, lost := w.lost - passedBeyond w l, flags := { w.flags with streamLost := true } }

/-- R97: a LOST notice with the newest round `n`. -/
def takeLost (n : Round) (s : State) : State :=
  if 0 < s.engine.balance then s
  else
    mapWindows { s with engine := { s.engine with lostFlag := true } } fun w =>
      if w.state = .opened then shortenWindow (earlier w.last n) w else w

/-- WINDOW_LOST_NOTICE (R97). -/
def execWindowLostNotice (s : State) : Host.Outcome State Fault Refusal :=
  .next (onStorePath s fun x => match x with
    | .lost n => some (takeLost n)
    | .stored _ => none
    | .overwritten _ => none
    | .flushedRestart => none
    | .flushedNodeReset => none)

/-- R98: a window in progress loses the rest of its rounds to a flush. -/
def truncateWindow (w : Window) : Window :=
  if inProgress w then
    markTruncated { w with
      lost := w.lost + remaining w
      cursor := if hasRounds w then roundsAfter w.last 1 else w.cursor
      state := .closing }
  else w

/-- R98: the span ends for every window. -/
def flushWindows (s : State) : State :=
  let t := mapWindows (countTruncated s inProgress) truncateWindow
  { t with engine := { t.engine with frontier := none, lostFlag := false } }

/-- R98: a flushed notice of cause RESTART; without effect while the reset balance is positive. -/
def takeFlushedRestart (s : State) : State := if 0 < s.engine.balance then s else flushWindows s

/-- FLUSHED_RESTART_NOTICE (R98). -/
def execFlushedRestartNotice (s : State) : Host.Outcome State Fault Refusal :=
  .next (onStorePath s fun x => match x with
    | .flushedRestart => some takeFlushedRestart
    | .stored _ => none
    | .overwritten _ => none
    | .flushedNodeReset => none
    | .lost _ => none)

/-- The reset balance changes by `d` (R99). -/
def moveBalance (s : State) (d : Int) : State :=
  { s with engine := { s.engine with balance := s.engine.balance + d } }

/-- R99: a flushed notice of cause NODE_RESET. -/
def takeFlushedNodeReset (s : State) : State :=
  moveBalance (if 0 < s.engine.balance then s else flushWindows s) (-1)

/-- FLUSHED_NODE_RESET_NOTICE (R99). -/
def execFlushedNodeResetNotice (s : State) : Host.Outcome State Fault Refusal :=
  .next (onStorePath s fun x => match x with
    | .flushedNodeReset => some takeFlushedNodeReset
    | .stored _ => none
    | .overwritten _ => none
    | .flushedRestart => none
    | .lost _ => none)

/-! ## The Egress Queue's notices -/

/-- ROOM_NOTICE (R101). -/
def execRoomNotice (s : State) : Host.Outcome State Fault Refusal :=
  .next (onQueuePath s fun x => match x with
    | .room => some id
    | .tailTransmitted _ => none)

/-- R111: the slot of the CLOSED window with this id is released. -/
def releaseSlot (i : WindowId) (s : State) : State :=
  { s with engine := { s.engine with
      windows := s.engine.windows.filter fun w => !(decide (w.id = i) && decide (w.state = .closed)) } }

/-- TAIL_TRANSMITTED_NOTICE (R111). -/
def execTailTransmittedNotice (s : State) : Host.Outcome State Fault Refusal :=
  .next (onQueuePath s fun x => match x with
    | .tailTransmitted i => some (releaseSlot i)
    | .room => none)

/-! ## Safe state, session open, marks and node reset -/

/-- R112, R115: a headed window in progress counts the rest of its rounds lost and sets ABORTED. -/
def abortWindow (w : Window) : Window :=
  if inProgress w && w.headSent then markAborted { w with lost := w.lost + remaining w, state := .closing } else w

/-- R112, R115: headed windows in progress are aborted, headless ones removed. -/
def abortWindows (s : State) : State :=
  mapWindows (discardWindows s fun w => inProgress w && !w.headSent) abortWindow

/-- The engine's held flag. -/
def setEngineHeld (s : State) (b : Bool) : State := { s with engine := { s.engine with held := b } }

/-- R112: a safe-state notice. -/
def takeEngineSafeState (s : State) : State := setEngineHeld (abortWindows s) true

/-- WINDOW_SAFE_STATE (R112). -/
def execWindowSafeState (s : State) : Host.Outcome State Fault Refusal :=
  .next (onAgentPath s fun x => match x with
    | .safeState => some takeEngineSafeState
    | .sessionOpen => none)

/-- R113: a session-open notice. -/
def takeEngineSessionOpen (s : State) : State := setEngineHeld s false

/-- WINDOW_SESSION_OPEN (R113). -/
def execWindowSessionOpen (s : State) : Host.Outcome State Fault Refusal :=
  .next (onAgentPath s fun x => match x with
    | .sessionOpen => some takeEngineSessionOpen
    | .safeState => none)

/-- R114: an epoch mark: the profiles and the epoch are adopted, and the mark acknowledged. -/
def takeEngineMark (e : Epoch) (s : State) : State :=
  engineAck { s with engine := { s.engine with profiles := s.agent.staging.profiles, epoch := e } } (.mark e)

/-- WINDOW_EPOCH_MARK (R114). -/
def execWindowEpochMark (s : State) : Host.Outcome State Fault Refusal :=
  .next (onTablePath s fun x => match x with
    | .mark e => some (takeEngineMark e)
    | .request _ => none
    | .nodeReset => none)

/-- R115: a node-reset notice. -/
def takeEngineNodeReset (s : State) : State :=
  let t := abortWindows s
  engineAck (moveBalance { t with engine := { t.engine with frontier := none, lostFlag := false } } 1) .nodeReset

/-- WINDOW_NODE_RESET_NOTICE (R115). -/
def execWindowNodeResetNotice (s : State) : Host.Outcome State Fault Refusal :=
  .next (onTablePath s fun x => match x with
    | .nodeReset => some takeEngineNodeReset
    | .request _ => none
    | .mark _ => none)

end Sys2Proof.Machine
end

