-- ==== Sys2Proof/Machine/Dispatch.lean ====
section
/-! DEFINITION. What each command does: one arm per constructor of Instr, each one call of its meaning. -/

namespace Sys2Proof.Machine

/-- The effect of a command on everything but the queue of waiting commands. -/
def exec (i : Instr) (s : State) : Host.Outcome State Fault Refusal :=
  match i with
  | .powerOnReset => Sys2Proof.Machine.execPowerOnReset s
  | .refclkLoss => Sys2Proof.Machine.execRefclkLoss s
  | .refclkReturn => Sys2Proof.Machine.execRefclkReturn s
  | .laneCellDiscard dt lane cell => Sys2Proof.Machine.execLaneCellDiscard dt lane cell s
  | .roundCell dt number declared => Sys2Proof.Machine.execRoundCell dt number declared s
  | .sampleCell dt channel low value => Sys2Proof.Machine.execSampleCell dt channel low value s
  | .feReplyRelay dt body => Sys2Proof.Machine.execFeReplyRelay dt body s
  | .silenceExpiry => Sys2Proof.Machine.execSilenceExpiry s
  | .commitStart => Sys2Proof.Machine.execCommitStart s
  | .nodeResetStart => Sys2Proof.Machine.execNodeResetStart s
  | .recordAppend => Sys2Proof.Machine.execRecordAppend s
  | .historyRestartNotice => Sys2Proof.Machine.execHistoryRestartNotice s
  | .historyLostNotice => Sys2Proof.Machine.execHistoryLostNotice s
  | .historyEpochMark => Sys2Proof.Machine.execHistoryEpochMark s
  | .historyNodeResetNotice => Sys2Proof.Machine.execHistoryNodeResetNotice s
  | .recordEvaluation => Sys2Proof.Machine.execRecordEvaluation s
  | .evaluatorLostNotice => Sys2Proof.Machine.execEvaluatorLostNotice s
  | .evaluatorRestartNotice => Sys2Proof.Machine.execEvaluatorRestartNotice s
  | .evaluatorEpochMark => Sys2Proof.Machine.execEvaluatorEpochMark s
  | .evaluatorNodeResetNotice => Sys2Proof.Machine.execEvaluatorNodeResetNotice s
  | .verdict => Sys2Proof.Machine.execVerdict s
  | .armNotice => Sys2Proof.Machine.execArmNotice s
  | .disarmNotice => Sys2Proof.Machine.execDisarmNotice s
  | .fireNotice => Sys2Proof.Machine.execFireNotice s
  | .triggerSafeState => Sys2Proof.Machine.execTriggerSafeState s
  | .triggerSessionOpen => Sys2Proof.Machine.execTriggerSessionOpen s
  | .triggerClose => Sys2Proof.Machine.execTriggerClose s
  | .triggerRestartNotice => Sys2Proof.Machine.execTriggerRestartNotice s
  | .triggerLostNotice => Sys2Proof.Machine.execTriggerLostNotice s
  | .triggerEpochMark => Sys2Proof.Machine.execTriggerEpochMark s
  | .triggerNodeResetNotice => Sys2Proof.Machine.execTriggerNodeResetNotice s
  | .openRequest => Sys2Proof.Machine.execOpenRequest s
  | .storedNotice => Sys2Proof.Machine.execStoredNotice s
  | .overwrittenNotice => Sys2Proof.Machine.execOverwrittenNotice s
  | .windowLostNotice => Sys2Proof.Machine.execWindowLostNotice s
  | .flushedRestartNotice => Sys2Proof.Machine.execFlushedRestartNotice s
  | .flushedNodeResetNotice => Sys2Proof.Machine.execFlushedNodeResetNotice s
  | .roomNotice => Sys2Proof.Machine.execRoomNotice s
  | .tailTransmittedNotice => Sys2Proof.Machine.execTailTransmittedNotice s
  | .windowSafeState => Sys2Proof.Machine.execWindowSafeState s
  | .windowSessionOpen => Sys2Proof.Machine.execWindowSessionOpen s
  | .windowEpochMark => Sys2Proof.Machine.execWindowEpochMark s
  | .windowNodeResetNotice => Sys2Proof.Machine.execWindowNodeResetNotice s
  | .lineStep => Sys2Proof.Machine.execLineStep s
  | .lineNotice => Sys2Proof.Machine.execLineNotice s
  | .lineSafeState => Sys2Proof.Machine.execLineSafeState s
  | .lineSessionOpen => Sys2Proof.Machine.execLineSessionOpen s
  | .lineClose => Sys2Proof.Machine.execLineClose s
  | .lineLostNotice => Sys2Proof.Machine.execLineLostNotice s
  | .lineRestartNotice => Sys2Proof.Machine.execLineRestartNotice s
  | .lineEpochMark => Sys2Proof.Machine.execLineEpochMark s
  | .lineNodeResetNotice => Sys2Proof.Machine.execLineNodeResetNotice s
  | .liveOffer => Sys2Proof.Machine.execLiveOffer s
  | .relayOffer => Sys2Proof.Machine.execRelayOffer s
  | .winHeadOffer => Sys2Proof.Machine.execWinHeadOffer s
  | .winSampleGroupOffer => Sys2Proof.Machine.execWinSampleGroupOffer s
  | .winTailOffer => Sys2Proof.Machine.execWinTailOffer s
  | .eventOffer source => Sys2Proof.Machine.execEventOffer source s
  | .replyOffer => Sys2Proof.Machine.execReplyOffer s
  | .transmissionStart => Sys2Proof.Machine.execTransmissionStart s
  | .transmissionCompletion => Sys2Proof.Machine.execTransmissionCompletion s
  | .creditNotice => Sys2Proof.Machine.execCreditNotice s
  | .settingsAdoption => Sys2Proof.Machine.execSettingsAdoption s
  | .requestArrival dt request => Sys2Proof.Machine.execRequestArrival dt request s
  | .unknownKindService => Sys2Proof.Machine.execUnknownKindService s
  | .openSession => Sys2Proof.Machine.execOpenSession s
  | .closeSession => Sys2Proof.Machine.execCloseSession s
  | .renew => Sys2Proof.Machine.execRenew s
  | .readActive => Sys2Proof.Machine.execReadActive s
  | .readStaging => Sys2Proof.Machine.execReadStaging s
  | .readHistory => Sys2Proof.Machine.execReadHistory s
  | .readStateHistory => Sys2Proof.Machine.execReadStateHistory s
  | .readStateCondition => Sys2Proof.Machine.execReadStateCondition s
  | .readStateTrigger => Sys2Proof.Machine.execReadStateTrigger s
  | .readStateWindow => Sys2Proof.Machine.execReadStateWindow s
  | .readStateLine => Sys2Proof.Machine.execReadStateLine s
  | .readStateEgress => Sys2Proof.Machine.execReadStateEgress s
  | .readStateAgent => Sys2Proof.Machine.execReadStateAgent s
  | .readCounters => Sys2Proof.Machine.execReadCounters s
  | .write => Sys2Proof.Machine.execWrite s
  | .revert => Sys2Proof.Machine.execRevert s
  | .commit => Sys2Proof.Machine.execCommit s
  | .markRoundReport => Sys2Proof.Machine.execMarkRoundReport s
  | .markAck source => Sys2Proof.Machine.execMarkAck source s
  | .arm => Sys2Proof.Machine.execArm s
  | .disarm => Sys2Proof.Machine.execDisarm s
  | .fireRequest => Sys2Proof.Machine.execFireRequest s
  | .line => Sys2Proof.Machine.execLine s
  | .dispatch => Sys2Proof.Machine.execDispatch s
  | .noticeAck => Sys2Proof.Machine.execNoticeAck s
  | .clearCounters => Sys2Proof.Machine.execClearCounters s
  | .nodeReset => Sys2Proof.Machine.execNodeReset s
  | .nodeResetAck source => Sys2Proof.Machine.execNodeResetAck source s
  | .frontRelay => Sys2Proof.Machine.execFrontRelay s
  | .feCommandTxComplete => Sys2Proof.Machine.execFeCommandTxComplete s
  | .leaseExpiry => Sys2Proof.Machine.execLeaseExpiry s

end Sys2Proof.Machine
end

