-- ==== Sys2Proof/Safety.lean ====
section
/-! DEFINITION. What a safe run of the part is: the laws that the manual states for the whole part, each as a predicate
on one state. A law names what it needs of the paths between the blocks, so that every step keeps it. -/

namespace Sys2Proof.Machine

/-! ## The stream and the History Store (R24, R31) -/

/-- R24: each held record is after every record stored before it. -/
def RingOrdered (ring : List Record) : Prop := ring.Pairwise fun a b => isAfter b.round a.round = true

/-- The newest round the store holds once it has taken one more item of its input path. -/
def newestAfter (n : Option Round) (x : PathItem) : Option Round :=
  match x with
  | .record r => some r.round
  | .lost => n
  | .restart => none
  | .mark _ => n
  | .nodeReset => none

/-- One item in the order the Assembler sends them, met by a store whose newest round is `n`: a record is a span start
or comes after `n` (R10, R13), and a LOST notice never meets an empty ring (R31). -/
def ItemInOrder (n : Option Round) (x : PathItem) : Prop :=
  match x with
  | .record r => r.spanStart = true ∨ ∃ m, n = some m ∧ isAfter r.round m = true
  | .lost => n ≠ none
  | .restart => True
  | .mark _ => True
  | .nodeReset => True

/-- Items in the order the Assembler sends them. -/
def PathInOrder : Option Round → List PathItem → Prop
  | _, [] => True
  | n, x :: rest => ItemInOrder n x ∧ PathInOrder (newestAfter n x) rest

/-- The newest round the store will hold once it has taken its whole input path. -/
def newestToCome (s : State) : Option Round := s.paths.asmToStore.foldl newestAfter (newestRound s.store)

/-- Table 1-2: the Assembler's last round and round in assembly against what it has delivered. -/
def AssemblyInOrder (s : State) : Prop :=
  match s.asm.stream, s.asm.assembly with
  | .down, none => newestToCome s = none
  | .down, some _ => False
  | .running r, none => newestToCome s = some r
  | .running r, some a =>
    a.round = r ∧ (a.spanStart = true ∨ ∃ m, newestToCome s = some m ∧ isAfter a.round m = true)
  | .lost r, none => newestToCome s = some r
  | .lost _, some _ => False

/-- R17: the silence timer runs while the stream is RUNNING and is stopped otherwise. -/
def SilenceTimed (s : State) : Prop :=
  match s.asm.stream with
  | .down => s.asm.silenceExpiry = none
  | .running _ => s.asm.silenceExpiry ≠ none
  | .lost _ => s.asm.silenceExpiry = none

/-- R24 with what it rests on: the ring holds at most 512 records in order, all of one span, and what is on its way to
the store keeps it so. -/
def StreamLaw (s : State) : Prop :=
  s.store.ring.length ≤ 512 ∧ RingOrdered s.store.ring ∧ (s.store.ring = [] ↔ s.store.spanStart = none) ∧
  PathInOrder (newestRound s.store) s.paths.asmToStore ∧ AssemblyInOrder s ∧ SilenceTimed s ∧ s.asm.backward ≤ 2

/-! ## The condition units (R39, R42) -/

/-- Table 3-4 for one unit under its adopted entry: an inert unit is IDLE with no previous value, QUALIFYING holds a
count from 1 to Q - 1, and an ACTIVE unit has a last assert round. -/
def UnitInRange (e : ChannelEntry) (u : CondUnit) : Prop :=
  (evaluating e = false → u.state = .idle ∧ u.previous = none) ∧
  (∀ k, u.state = .qualifying k → 1 ≤ k ∧ k < e.qualify) ∧
  (u.state = .active → u.lastAssert ≠ none) ∧
  u.assertCount ≤ 65535

/-- R151: the qualify count of every entry is at least 1. -/
def QualifyInRange (es : Vector ChannelEntry 16) : Prop := ∀ i : Fin 16, 1 ≤ (es.get i).qualify

/-- R39, R42: every unit is in range, and so is every qualify count that it may come to live under. -/
def UnitLaw (s : State) : Prop :=
  (∀ i : Fin 16, UnitInRange (s.evaluator.entries.get i) (s.evaluator.units.get i)) ∧
  QualifyInRange s.evaluator.entries ∧ QualifyInRange s.agent.staging.channels ∧ QualifyInRange s.agent.active.channels

/-! ## The held blocks (R60, R112, R119, R125) -/

/-- R60: an entry that a held Trigger Table may have. -/
def Unarmed (l : EntryLive) : Prop := l.state ≠ .armed ∧ (∀ b, l.state ≠ .holdoff b) ∧ l.forceMark = false

/-- While a block is held: no entry is ARMED or in HOLDOFF or marked to fire, every line is INACTIVE, and no window is
OPEN or DRAINING. A disabled line is INACTIVE in any case. -/
def HeldLaw (s : State) : Prop :=
  (s.table.held = true → ∀ i : Fin 8, Unarmed (s.table.live.get i)) ∧
  (s.lines.held = true → ∀ n : Fin 8, s.lines.lines.get n = .inactive) ∧
  (∀ n : Fin 8, (s.lines.entries.get n).enable = false → s.lines.lines.get n = .inactive) ∧
  (s.engine.held = true → ∀ w ∈ s.engine.windows, inProgress w = false)

/-! ## The window list and the tails (R87, R111) -/

/-- R87: at most 6 windows, with distinct ids. -/
def WindowListLaw (s : State) : Prop :=
  s.engine.windows.length ≤ 6 ∧ (s.engine.windows.map Window.id).Nodup

/-- The ids of the tails in a run of window cells. -/
def tailIds (cs : List WindowCell) : List WindowId :=
  cs.filterMap fun c => match c with
    | .tail t => some t.id
    | .head _ => none
    | .sample _ => none

/-- The ids of the tails whose transmission has started and whose slot is still to be released. -/
def releaseIds (ns : List QueueNotice) : List WindowId :=
  ns.filterMap fun n => match n with
    | .tailTransmitted i => some i
    | .room => none

/-- The ids of every tail that the Egress Queue has admitted and whose slot is not yet released. -/
def tailsOut (s : State) : List WindowId := tailIds s.egress.windows ++ releaseIds s.paths.queueToEngine

/-- An offer of a window cell, not of an event. -/
def isWindowOffer (x : EngineOffer) : Bool :=
  match x with
  | .event _ => false
  | .head _ => true
  | .group _ => true
  | .tail _ => true

/-- The window a waiting offer belongs to: a tail to a CLOSING window with head sent, a head to a window in progress
without, a group to a window in progress with; a head or group waits only with no window CLOSING. -/
def OfferOwned (ws : List Window) (x : EngineOffer) : Prop :=
  match x with
  | .event _ => True
  | .tail t => ∃ w ∈ ws, w.id = t.id ∧ w.state = .closing ∧ w.headSent = true
  | .head h => (∀ w ∈ ws, w.state ≠ .closing) ∧ ∃ w ∈ ws, w.id = h.id ∧ inProgress w = true ∧ w.headSent = false
  | .group g => (∀ w ∈ ws, w.state ≠ .closing) ∧ g ≠ [] ∧
      ∃ w ∈ ws, (∀ y ∈ g, y.id = w.id) ∧ inProgress w = true ∧ w.headSent = true

/-- R101: outside a pass no window is CLOSING, no window cell is offered and no acknowledgement is due; a waiting pass has offered exactly one. -/
def PassLaw (s : State) : Prop :=
  match s.engine.pass with
  | none => s.paths.engineOffers.filter isWindowOffer = [] ∧ s.engine.ackDue = none ∧
      ∀ w ∈ s.engine.windows, w.state ≠ .closing
  | some _ => ∃ x, s.paths.engineOffers.filter isWindowOffer = [x] ∧ OfferOwned s.engine.windows x

/-- A WINDOW cell that is not a tail. -/
def isDataCell (c : WindowCell) : Bool :=
  match c with
  | .tail _ => false
  | .head _ => true
  | .sample _ => true

/-- The window a cell belongs to. -/
def cellWindow (c : WindowCell) : WindowId :=
  match c with
  | .head h => h.id
  | .sample x => x.id
  | .tail t => t.id

/-- A WIN_HEAD. -/
def isHead (c : WindowCell) : Bool :=
  match c with
  | .head _ => true
  | .sample _ => false
  | .tail _ => false

/-- R111: in the queue no cell of a window follows its tail and none precedes its head; the window of every queued
cell is in the list with its head sent; and once a tail's transmission has started, no cell of its window is left. -/
def CellOrderLaw (s : State) : Prop :=
  s.egress.windows.Pairwise (fun a b => cellWindow a = cellWindow b → isDataCell a = true ∧ isHead b = false) ∧
  (∀ c ∈ s.egress.windows, ∃ w ∈ s.engine.windows, w.id = cellWindow c ∧ w.headSent = true) ∧
  (∀ i ∈ releaseIds s.paths.queueToEngine, ∀ c ∈ s.egress.windows, cellWindow c ≠ i)

/-- R111: every tail that has not been released belongs to a CLOSED window of the list, one tail to a window, and the
cells of a window are in order; with R87 and the pass law it rests on. -/
def TailLaw (s : State) : Prop :=
  WindowListLaw s ∧ (tailsOut s).Nodup ∧
  (∀ i ∈ tailsOut s, ∃ w ∈ s.engine.windows, w.id = i ∧ w.state = .closed) ∧ CellOrderLaw s ∧ PassLaw s

/-! ## The Egress Queue and the Agent (R134, R145, R172) -/

/-- R134: the queued cells other than tails. -/
def cellsButTails (q : Egress) : Nat :=
  q.replies.length + q.events.length + (q.windows.filter isDataCell).length + q.relays.length + q.lives.length

/-- R151: a live limit in its range. -/
def LimitInRange (n : Nat) : Prop := 16 ≤ n ∧ n ≤ 240

/-- R134, R145, R172: at most 250 cells other than tails, at most 1,023 credits, at most 8 requests, and the live limit
in its range wherever it stands. -/
def QueueLaw (s : State) : Prop :=
  cellsButTails s.egress ≤ 250 ∧ s.egress.credits ≤ 1023 ∧ s.agent.fifo.length ≤ 8 ∧
  LimitInRange s.egress.liveLimit ∧ LimitInRange s.agent.staging.settings.liveLimit ∧
  LimitInRange s.agent.active.settings.liveLimit ∧ ∀ x ∈ s.paths.settings, LimitInRange x.liveLimit

/-! ## The epochs (R155) -/

/-- What a commit or a node reset sends down the data path. -/
inductive Token
  | mark (epoch : Epoch)
  | nodeReset
  deriving DecidableEq, Repr

/-- The token in a start. -/
def startToken (x : AssemblerStart) : Token :=
  match x with
  | .commit e => .mark e
  | .nodeReset => .nodeReset

/-- The token in an item of the Assembler's paths. -/
def pathToken (x : PathItem) : Option Token :=
  match x with
  | .mark e => some (.mark e)
  | .nodeReset => some .nodeReset
  | .record _ => none
  | .lost => none
  | .restart => none

/-- The token in an item of the Evaluator's path. -/
def verdictToken (x : VerdictItem) : Option Token :=
  match x with
  | .mark e => some (.mark e)
  | .nodeReset => some .nodeReset
  | .verdict _ => none
  | .lost => none
  | .restart => none

/-- The token in an item of the table's path to the engine. -/
def engineToken (x : EngineItem) : Option Token :=
  match x with
  | .mark e => some (.mark e)
  | .nodeReset => some .nodeReset
  | .request _ => none

/-- The token in an item of the table's path to the lines. -/
def lineToken (x : LineItem) : Option Token :=
  match x with
  | .mark e => some (.mark e)
  | .nodeReset => some .nodeReset
  | .step _ => none
  | .lost => none
  | .restart => none

/-- The token in an acknowledgement of the engine. -/
def engineAckToken (x : EngineAck) : Token :=
  match x with
  | .mark e => .mark e
  | .nodeReset => .nodeReset

/-- The token in an acknowledgement of the lines. -/
def lineAckToken (x : LineAck) : Option Token :=
  match x with
  | .mark e => some (.mark e)
  | .nodeReset => some .nodeReset
  | .notice _ _ => none

/-- The tokens that the Assembler has still to insert. -/
def beforeAssembler (s : State) : List Token :=
  s.paths.agentToAsm.map startToken ++ s.asm.pendingMark.toList.map Token.mark

/-- The tokens that the Condition Evaluator has still to take. -/
def beforeEvaluator (s : State) : List Token := beforeAssembler s ++ s.paths.asmToEvaluator.filterMap pathToken

/-- The tokens that the Trigger Table has still to take. -/
def beforeTable (s : State) : List Token := beforeEvaluator s ++ s.paths.evaluatorToTable.filterMap verdictToken

/-- The tokens that the Window Engine has still to take. -/
def beforeEngine (s : State) : List Token := beforeTable s ++ s.paths.tableToEngine.filterMap engineToken

/-- The tokens that the Output Line Unit has still to take. -/
def beforeLines (s : State) : List Token := beforeTable s ++ s.paths.tableToLines.filterMap lineToken

/-- The token of the commit or node reset in progress, until its acknowledgement has been taken. -/
def tokenDue (a : Agent) (acked : Bool) : List Token :=
  if acked then [] else if a.committing then [.mark a.epoch] else if a.nodeResetting then [.nodeReset] else []

/-- The epoch a block has adopted: one less than the Agent's while a mark is still to reach it. -/
def adoptedEpoch (s : State) (before : List Token) : Epoch :=
  if before.any (fun x => decide (x ≠ .nodeReset)) then s.agent.epoch - 1 else s.agent.epoch

/-- R155 with what it rests on: one token at most is on its way to each acknowledging block, it is the one the Agent
waits for, and each block's adopted epoch says whether the mark has reached it. -/
def EpochLaw (s : State) : Prop :=
  (s.agent.committing = true → s.agent.nodeResetting = false) ∧
  beforeEngine s ++ (s.engine.ackDue.toList ++ s.paths.engineAcks).map engineAckToken = tokenDue s.agent s.agent.engineAcked ∧
  beforeLines s ++ s.paths.lineAcks.filterMap lineAckToken = tokenDue s.agent s.agent.linesAcked ∧
  s.asm.epoch = adoptedEpoch s (beforeAssembler s) ∧ s.evaluator.epoch = adoptedEpoch s (beforeEvaluator s) ∧
  s.table.epoch = adoptedEpoch s (beforeTable s) ∧ s.engine.epoch = adoptedEpoch s (beforeEngine s) ∧
  s.lines.epoch = adoptedEpoch s (beforeLines s)

/-- R155: a block's adopted epoch equals the Agent's or one less, and is one less only while a commit is in progress. -/
def EpochAgrees (s : State) (e : Epoch) : Prop :=
  e = s.agent.epoch ∨ (e = s.agent.epoch - 1 ∧ s.agent.committing = true)

/-! ## Replies (R172, R173) -/

/-- The replies that the Agent has offered and the Egress Queue has not admitted. -/
def repliesOut (s : State) : Nat :=
  (s.paths.agentOffers.filter fun x => match x with
    | .reply _ => true
    | .event _ => false).length + s.egress.waitingReply.toList.length

/-- The kind of the NODE request at the head of the FIFO. -/
def headKind (s : State) : Option Kind :=
  match s.agent.fifo.head? with
  | some q => if destinationOf q.dest = some .node then kindOf q.kind else none
  | none => none

/-- R172, R173: one reply is out in AWAITING ROOM and none in any other phase; a service in progress has its request
at the head of the FIFO; a commit or a node reset in progress waits for acknowledgements with its request there. -/
def ReplyLaw (s : State) : Prop :=
  repliesOut s = (if s.agent.phase = .awaitingRoom then 1 else 0) ∧
  (s.agent.phase ≠ .free → s.agent.fifo ≠ []) ∧
  (s.agent.committing = true → s.agent.phase = .awaitingAck ∧ headKind s = some .commit) ∧
  (s.agent.nodeResetting = true → s.agent.phase = .awaitingAck ∧ headKind s = some .nodeReset)

/-! ## The reset balance (R99) -/

/-- The node resets on the Window Engine's history side: each start, notice or flushed notice still to reach it. -/
def resetsFromStore (s : State) : Nat :=
  (s.paths.agentToAsm.map startToken).count .nodeReset +
  (s.paths.asmToStore.filterMap pathToken).count .nodeReset + s.paths.storeToEngine.count .flushedNodeReset

/-- The node resets on the Window Engine's trigger side: each start or notice still to reach it. -/
def resetsFromTable (s : State) : Nat := (beforeEngine s).count .nodeReset

/-- R99: the reset balance is the node-reset notices taken less the flushed notices of cause NODE_RESET taken, and
each node reset sends one of each. -/
def BalanceLaw (s : State) : Prop :=
  s.engine.balance + (resetsFromTable s : Int) = (resetsFromStore s : Int)

/-! ## What a command may change -/

/-- The block whose step a command is; REFCLK_LOSS and REFCLK_RETURN are the clock's, and CLEAR_COUNTERS stands apart
from the Agent's other commands because it reaches every block's counters (R183). -/
inductive Block
  | power
  | clock
  | lanes
  | assembler
  | store
  | evaluator
  | table
  | engine
  | lines
  | queue
  | agent
  | clearing
  deriving DecidableEq, Repr

/-- The block of each command, by the sections of the opcode table. The Window Engine's offers are answered by the
Egress Queue and go on with the engine's pass; they count as the engine's. -/
def blockOf (c : Instr) : Block :=
  match c with
  | .powerOnReset => .power
  | .refclkLoss | .refclkReturn => .clock
  | .clearCounters => .clearing
  | .laneCellDiscard .. => .lanes
  | .roundCell .. | .sampleCell .. | .feReplyRelay .. | .silenceExpiry | .commitStart | .nodeResetStart => .assembler
  | .recordAppend | .historyRestartNotice | .historyLostNotice | .historyEpochMark | .historyNodeResetNotice => .store
  | .recordEvaluation | .evaluatorLostNotice | .evaluatorRestartNotice | .evaluatorEpochMark
  | .evaluatorNodeResetNotice => .evaluator
  | .verdict | .armNotice | .disarmNotice | .fireNotice | .triggerSafeState | .triggerSessionOpen | .triggerClose
  | .triggerRestartNotice | .triggerLostNotice | .triggerEpochMark | .triggerNodeResetNotice => .table
  | .openRequest | .storedNotice | .overwrittenNotice | .windowLostNotice | .flushedRestartNotice
  | .flushedNodeResetNotice | .roomNotice | .tailTransmittedNotice | .windowSafeState | .windowSessionOpen
  | .windowEpochMark | .windowNodeResetNotice | .winHeadOffer | .winSampleGroupOffer | .winTailOffer => .engine
  | .lineStep | .lineNotice | .lineSafeState | .lineSessionOpen | .lineClose | .lineLostNotice | .lineRestartNotice
  | .lineEpochMark | .lineNodeResetNotice => .lines
  | .liveOffer | .relayOffer | .eventOffer _ | .replyOffer | .transmissionStart | .transmissionCompletion
  | .creditNotice | .settingsAdoption => .queue
  | .requestArrival .. | .unknownKindService | .openSession | .closeSession | .renew | .readActive | .readStaging
  | .readHistory | .readStateHistory | .readStateCondition | .readStateTrigger | .readStateWindow | .readStateLine
  | .readStateEgress | .readStateAgent | .readCounters | .write | .revert | .commit | .markRoundReport | .markAck _
  | .arm | .disarm | .fireRequest | .line | .dispatch | .noticeAck | .nodeReset | .nodeResetAck _
  | .frontRelay | .feCommandTxComplete | .leaseExpiry => .agent

/-- `t` differs from `s` in nothing but what block `b` may change: its own state, the counters it owns (Table 9-4), and
the paths at whose ends it stands. Time may pass before a cell that comes in and up to an expiry. A power-on reset
changes everything but the queue of commands. -/
def ChangesOnly (b : Block) (s t : State) : Prop :=
  let later : Clock := { s.clock with localTimer := t.clock.localTimer }
  match b with
  | .power => t.pending = s.pending
  | .clock => t = { s with clock := { s.clock with refclk := t.clock.refclk } }
  | .lanes => t = { s with
      clock := later
      counters := { s.counters with
        streamBadCells := t.counters.streamBadCells, controlBadCells := t.counters.controlBadCells } }
  | .assembler => t = { s with
      clock := later, asm := t.asm
      counters := { s.counters with
        roundsAssembled := t.counters.roundsAssembled, absentSamples := t.counters.absentSamples
        straySamples := t.counters.straySamples, malformedStreamCells := t.counters.malformedStreamCells
        roundsLost := t.counters.roundsLost, backwardRoundsRefused := t.counters.backwardRoundsRefused
        restarts := t.counters.restarts }
      paths := { s.paths with
        agentToAsm := t.paths.agentToAsm, asmToStore := t.paths.asmToStore, asmToEvaluator := t.paths.asmToEvaluator
        asmOffers := t.paths.asmOffers, asmReports := t.paths.asmReports } }
  | .store => t = { s with
      store := t.store
      paths := { s.paths with asmToStore := t.paths.asmToStore, storeToEngine := t.paths.storeToEngine } }
  | .evaluator => t = { s with
      evaluator := t.evaluator
      paths := { s.paths with
        asmToEvaluator := t.paths.asmToEvaluator, evaluatorToTable := t.paths.evaluatorToTable } }
  | .table => t = { s with
      table := t.table
      paths := { s.paths with
        evaluatorToTable := t.paths.evaluatorToTable, agentToTable := t.paths.agentToTable
        tableToEngine := t.paths.tableToEngine, tableToLines := t.paths.tableToLines
        tableOffers := t.paths.tableOffers, tableAcks := t.paths.tableAcks } }
  | .engine => t = { s with
      engine := t.engine, egress := { s.egress with windows := t.egress.windows }
      counters := { s.counters with
        windowsOpened := t.counters.windowsOpened, windowsRefused := t.counters.windowsRefused
        windowsTruncated := t.counters.windowsTruncated, windowsExtended := t.counters.windowsExtended
        retriggersIgnored := t.counters.retriggersIgnored, windowsDiscarded := t.counters.windowsDiscarded }
      paths := { s.paths with
        tableToEngine := t.paths.tableToEngine, storeToEngine := t.paths.storeToEngine
        queueToEngine := t.paths.queueToEngine, agentToEngine := t.paths.agentToEngine
        engineOffers := t.paths.engineOffers, engineAcks := t.paths.engineAcks } }
  | .lines => t = { s with
      lines := t.lines
      paths := { s.paths with
        tableToLines := t.paths.tableToLines, agentToLines := t.paths.agentToLines, lineAcks := t.paths.lineAcks } }
  | .queue => t = { s with
      egress := t.egress
      counters := { s.counters with
        liveDropped := t.counters.liveDropped, relayDropped := t.counters.relayDropped
        eventsDropped := t.counters.eventsDropped, cellsTransmitted := t.counters.cellsTransmitted }
      agent := { s.agent with fifo := t.agent.fifo, phase := t.agent.phase }
      paths := { s.paths with
        asmOffers := t.paths.asmOffers, tableOffers := t.paths.tableOffers, engineOffers := t.paths.engineOffers
        agentOffers := t.paths.agentOffers, settings := t.paths.settings, queueToEngine := t.paths.queueToEngine
        credits := t.paths.credits } }
  | .agent => t = { s with
      clock := later, agent := t.agent, frontOut := t.frontOut
      counters := { s.counters with
        requestsDropped := t.counters.requestsDropped, malformedRequests := t.counters.malformedRequests }
      paths := { s.paths with
        agentToAsm := t.paths.agentToAsm, agentToTable := t.paths.agentToTable, agentToLines := t.paths.agentToLines
        agentToEngine := t.paths.agentToEngine, credits := t.paths.credits, asmReports := t.paths.asmReports
        tableAcks := t.paths.tableAcks, lineAcks := t.paths.lineAcks, engineAcks := t.paths.engineAcks
        agentOffers := t.paths.agentOffers, settings := t.paths.settings } }
  | .clearing => t = { s with
      agent := { s.agent with phase := t.agent.phase }, counters := t.counters
      paths := { s.paths with agentOffers := t.paths.agentOffers } }

/-! ## A safe state -/

/-- Every law holds. -/
def Safe (s : State) : Prop :=
  StreamLaw s ∧ UnitLaw s ∧ HeldLaw s ∧ TailLaw s ∧ QueueLaw s ∧ EpochLaw s ∧ ReplyLaw s ∧ BalanceLaw s

end Sys2Proof.Machine
end

