-- ==== Sys2Proof/Certificates/Slice0/Obligations.lean ====
section
/-! DEFINITION. The statements about the model. The definitions before them say a rule of the manual as one record or
one value, apart from the model's own layering, so that a statement can be held beside the rule. `raise c k` is a
counter risen by k (R183), `distance`, `isAfter` and `atOrAfter` are the words of R1. -/

open Sys2Proof Sys2Proof.Machine

namespace Sys2Proof.Machine.Stated

/-! ## What the statements of several blocks say -/

/-- R16, R19, R18: what the Assembler offers the Egress Queue. -/
def offered (s : State) (x : AssemblerOffer) : State :=
  { s with paths := { s.paths with asmOffers := s.paths.asmOffers ++ [x] } }

/-- R18: an event of the Assembler. -/
def streamEvent (code : EventCode) (round : Round) (a b : Word32) : AssemblerOffer :=
  .event { code := code, round := some round, a := a, b := b, forced := false }

/-- The last round: absent in DOWN (Table 1-2). -/
def lastRoundOf (st : Stream) : Option Round :=
  match st with
  | .down => none
  | .running r => some r
  | .lost r => some r

/-- R20, R21: the state once the mark of epoch `e` has been inserted. -/
def markInserted (s : State) (e : Epoch) : State :=
  { s with
    asm := { s.asm with
      modes := Vector.ofFn fun i => (s.agent.staging.channels.get i).mode
      silenceTimeout := s.agent.staging.settings.silenceTimeout
      epoch := e
      pendingMark := none }
    paths := { s.paths with
      asmToStore := s.paths.asmToStore ++ [.mark e]
      asmToEvaluator := s.paths.asmToEvaluator ++ [.mark e]
      asmReports := s.paths.asmReports ++ [lastRoundOf s.asm.stream] } }

/-- R6, R7, R20: the state once the round in assembly `a` has closed: its record on both paths, the counters, and any
mark that waited for it. -/
def roundClosed (s : State) (a : InAssembly) (complete : Bool) : State :=
  let x : Record := { round := a.round, epoch := a.epoch, values := a.kept, complete := complete,
                      gapBefore := a.gapBefore, spanStart := a.spanStart }
  let absent := ((List.finRange 16).filter fun i => a.declared.getLsbD i.val && !a.received.getLsbD i.val).length
  let t : State := { s with
    asm := { s.asm with assembly := none }
    counters := { s.counters with
      roundsAssembled := raise s.counters.roundsAssembled 1
      absentSamples := if complete then s.counters.absentSamples else raise s.counters.absentSamples absent }
    paths := { s.paths with
      asmToStore := s.paths.asmToStore ++ [.record x], asmToEvaluator := s.paths.asmToEvaluator ++ [.record x] } }
  match s.asm.pendingMark with
  | none => t
  | some e => markInserted t e

/-- R8: the state once a ROUND cell has been accepted with the gap and span start that its judgement gave; with an
empty declared mask the round completes at once (R15). -/
def roundOpened (s : State) (n : Round) (declared : ChannelMask) (gap : Nat) (spanStart : Bool) : State :=
  let a : InAssembly := { round := n, declared := declared, received := 0, epoch := s.asm.epoch, gapBefore := gap,
                          spanStart := spanStart, kept := Vector.replicate 16 none }
  let t : State := { s with asm := { s.asm with
    stream := .running n, backward := 0, assembly := some a
    silenceExpiry := some (s.clock.localTimer + s.asm.silenceTimeout * 1000) } }
  if declared = 0 then roundClosed t a true else t

/-- R12: the state once a restart has been announced: the notice on both paths, the counter, the event. -/
def restartAnnounced (s : State) (old n : Round) : State :=
  offered { s with
    counters := { s.counters with restarts := raise s.counters.restarts 1 }
    paths := { s.paths with
      asmToStore := s.paths.asmToStore ++ [.restart], asmToEvaluator := s.paths.asmToEvaluator ++ [.restart] } }
    (streamEvent .streamRestart n n old)

/-- R10, R13: the state once `k` lost rounds have been counted and an event offered. -/
def gapCounted (s : State) (k : Nat) (x : AssemblerOffer) : State :=
  offered { s with counters := { s.counters with roundsLost := raise s.counters.roundsLost k } } x

end Sys2Proof.Machine.Stated

open Sys2Proof.Machine.Stated

/-! ## The queue of commands, the clock, the lanes -/

/-- Step takes the command at the front of the queue and answers exec of it on the state with the queue's rest. -/
def Obligations.StepTakesFrontCommand : Prop :=
  ∀ (c : Instr) (rest : List Instr) (s : State),
    step { s with pending := c :: rest } = exec c { s with pending := rest }

/-- R194 with notes/assumptions/2 and 3 (the model's choices): time passes only with REFCLK present, the local timer
does not run past the earliest expiry that is still ahead, and an empty queue lets one microsecond pass. -/
def Obligations.LocalTimerStopsAtExpiry : Prop :=
  ∀ s : State,
    (s.pending = [] → step s = .next (elapse s 1)) ∧
    (∀ dt, s.clock.refclk = false → elapse s dt = s) ∧
    (∀ dt, s.clock.refclk = true → (∀ e ∈ runningExpiries s, s.clock.localTimer + dt ≤ e) →
      elapse s dt = { s with clock := { s.clock with localTimer := s.clock.localTimer + dt } }) ∧
    (∀ dt e, s.clock.refclk = true → e ∈ runningExpiries s → (∀ x ∈ runningExpiries s, e ≤ x) →
      s.clock.localTimer ≤ e → e < s.clock.localTimer + dt →
      elapse s dt = { s with clock := { s.clock with localTimer := e } }) ∧
    (∀ dt e, s.clock.refclk = true → e ∈ runningExpiries s → e < s.clock.localTimer → elapse s dt = s)

/-- Each command changes nothing but its own block's state, the counters that Table 9-4 gives that block, and the paths
at whose ends it stands (`ChangesOnly`, Safety.lean): REFCLK_LOSS and REFCLK_RETURN change REFCLK alone, and
CLEAR_COUNTERS, beside the Agent's phase and its offered reply, all the counters (R183). The queue of waiting commands
is among what each command leaves; of POWER_ON_RESET nothing else is said here (PowerOnResetValues). -/
def Obligations.CommandsChangeOnlyTheirBlock : Prop :=
  ∀ (c : Instr) (s t : State), exec c s = .next t → ChangesOnly (blockOf c) s t ∧ t.pending = s.pending

/-- R3, R25, R42, R59, R86, R89, R118, R119, R133, R153, R186, R194: what a power-on reset leaves. REFCLK is an input
and the queue of commands is outside the part, so both stay (notes/assumptions/13, the model's choice). -/
def Obligations.PowerOnResetValues : Prop :=
  (∀ s : State, exec .powerOnReset s =
    .next { State.reset with clock := { localTimer := 0, refclk := s.clock.refclk }, pending := s.pending }) ∧
  State.reset.clock.localTimer = 0 ∧
  State.reset.asm = { stream := .down, assembly := none, backward := 0, modes := Vector.replicate 16 .off,
                      silenceTimeout := 20, epoch := 0, pendingMark := none, silenceExpiry := none } ∧
  State.reset.store = { ring := [], spanStart := none } ∧
  (∀ i : Fin 16, State.reset.evaluator.units.get i =
    { state := .idle, previous := none, lastAssert := none, lastRelease := none, lastDuration := none,
      assertCount := 0 }) ∧
  (∀ i : Fin 16, State.reset.evaluator.entries.get i = defaultChannel) ∧ State.reset.evaluator.epoch = 0 ∧
  (∀ i : Fin 8, State.reset.table.live.get i =
    { state := .disarmed, fireCount := 0, lastFire := none, compare := 0, forceMark := false }) ∧
  (∀ i : Fin 8, State.reset.table.entries.get i = defaultTrigger) ∧ State.reset.table.held = false ∧
  State.reset.table.previousVerdict = none ∧ State.reset.table.epoch = 0 ∧
  State.reset.engine = { windows := [], nextId := 0, held := false, frontier := none, lostFlag := false, balance := 0,
                         profiles := Vector.replicate 4 defaultProfile, epoch := 0, pass := none, ackDue := none } ∧
  (∀ n : Fin 8, State.reset.lines.lines.get n = .inactive ∧ State.reset.lines.entries.get n = defaultLine ∧
    pinOf State.reset n = .low) ∧
  State.reset.lines.held = false ∧ State.reset.lines.lastStep = none ∧ State.reset.lines.epoch = 0 ∧
  State.reset.egress = { replies := [], events := [], windows := [], relays := [], lives := [], sending := none,
                         credits := 0, nextSeq := 0, waitingReply := none, liveLimit := 128, eventMask := 511 } ∧
  State.reset.agent.session = .closed ∧ State.reset.agent.leasePeriod = 0 ∧ State.reset.agent.leaseExpiry = none ∧
  State.reset.agent.fifo = [] ∧ State.reset.agent.phase = .free ∧ State.reset.agent.nodeResetting = false ∧
  State.reset.agent.epoch = 0 ∧ State.reset.agent.active = defaultBank ∧ State.reset.agent.staging = defaultBank ∧
  State.reset.agent.writeCount = 0 ∧ State.reset.agent.committing = false ∧ State.reset.agent.markRound = .absent ∧
  State.reset.frontOut = none ∧ (∀ i < 21, counterAt State.reset.counters i = some 0) ∧
  State.reset.paths = emptyPaths

/-- R188, R194: a cell that was not received whole, whose check fails, or whose kind is not valid on the lane is
discarded and counted. REFCLK_LOSS stops and REFCLK_RETURN restarts the timer and the lanes: while REFCLK is lost no
cell comes in, no transmission completes and no timer expires (notes/assumptions/14, the model's choice for the lanes'
commands). -/
def Obligations.LanesDiscardAndStop : Prop :=
  ∀ s : State,
    exec .refclkLoss s = .next { s with clock := { s.clock with refclk := false } } ∧
    exec .refclkReturn s = .next { s with clock := { s.clock with refclk := true } } ∧
    (∀ (dt : Nat) (cell : Option RawCell), s.clock.refclk = true →
      (∀ c, cell = some c → crc16 (headBytes (cellHead c)) = c.extractLsb' 0 16 →
        headByte (cellHead c) 0 ∉ [0x01#8, 0x02#8, 0x03#8]) →
      exec (.laneCellDiscard dt .streamIn cell) s = .next { elapse s dt with
        counters := { s.counters with streamBadCells := raise s.counters.streamBadCells 1 } }) ∧
    (∀ (dt : Nat) (cell : Option RawCell), s.clock.refclk = true →
      (∀ c, cell = some c → crc16 (headBytes (cellHead c)) = c.extractLsb' 0 16 → headByte (cellHead c) 0 ≠ 0x10#8) →
      exec (.laneCellDiscard dt .controlIn cell) s = .next { elapse s dt with
        counters := { s.counters with controlBadCells := raise s.counters.controlBadCells 1 } }) ∧
    (s.clock.refclk = false →
      (∀ dt lane cell, exec (.laneCellDiscard dt lane cell) s = .next s) ∧
      (∀ dt n d, exec (.roundCell dt n d) s = .next s) ∧ (∀ dt ch low v, exec (.sampleCell dt ch low v) s = .next s) ∧
      (∀ dt b, exec (.feReplyRelay dt b) s = .next s) ∧ (∀ dt q, exec (.requestArrival dt q) s = .next s) ∧
      exec .transmissionCompletion s = .next s ∧ exec .feCommandTxComplete s = .next s ∧
      exec .silenceExpiry s = .next s ∧ exec .leaseExpiry s = .next s)

/-- R187, R188, R190, R191: a cell laid out by Table 10-1 and sealed with its check is read back, with every field at
every value and whatever its ignored bytes hold; any other cell is discarded. -/
def Obligations.ReceivedCellsDecode : Prop :=
  (∀ dt n declared ignored, laneCommand dt .streamIn (some (sealCell (roundHead n declared ignored))) =
    .roundCell dt n declared) ∧
  (∀ dt channel low value ignored, laneCommand dt .streamIn (some (sealCell (sampleHead channel low value ignored))) =
    .sampleCell dt channel low value) ∧
  (∀ dt body ignored, laneCommand dt .streamIn (some (sealCell (feReplyHead body ignored))) = .feReplyRelay dt body) ∧
  (∀ dt q, laneCommand dt .controlIn (some (sealCell (requestHead q))) = .requestArrival dt q) ∧
  (∀ dt lane, laneCommand dt lane none = .laneCellDiscard dt lane none) ∧
  (∀ dt lane c, passesCheck c = false → laneCommand dt lane (some c) = .laneCellDiscard dt lane (some c)) ∧
  (∀ dt c, headByte (cellHead c) 0 ∉ [0x01#8, 0x02#8, 0x03#8] →
    laneCommand dt .streamIn (some c) = .laneCellDiscard dt .streamIn (some c)) ∧
  (∀ dt c, headByte (cellHead c) 0 ≠ 0x10#8 →
    laneCommand dt .controlIn (some c) = .laneCellDiscard dt .controlIn (some c))

namespace Sys2Proof.Machine.Stated

/-- The `w` bits of a cell that end with byte `last`, counted as Table 10-1 counts bytes. -/
def bitsTo (c : RawCell) (last w : Nat) : BitVec w := (cellHead c).extractLsb' (8 * (21 - last)) w

/-- Table 7-4. -/
def eventByte (c : EventCode) : Byte :=
  match c with
  | .triggerFired => 0x01#8
  | .windowRefused => 0x02#8
  | .roundGap => 0x03#8
  | .streamLost => 0x04#8
  | .streamResumed => 0x05#8
  | .streamRestart => 0x06#8
  | .leaseExpired => 0x07#8
  | .creditOverflow => 0x08#8
  | .scheduleSlip => 0x09#8

/-- Table 10-4. -/
def resultByte (r : Result) : Byte :=
  match r with
  | .ok => 0#8
  | .noSession => 1#8
  | .expired => 2#8
  | .inSession => 3#8
  | .badKind => 4#8
  | .badArg => 5#8
  | .count => 6#8
  | .badCfg => 7#8
  | .notHeld => 8#8

/-- Table 10-2, the WIN_TAIL flags. -/
def flagBits (f : WinFlags) : List Bool :=
  [f.shortPre, f.extended, f.truncated, f.gap, f.streamLost, f.aborted, false, false]

end Sys2Proof.Machine.Stated

/-- R142, R147, R174, R187, R189, R190 (Tables 10-1, 10-2, 7-4, 10-4): every cell on Egress Out passes its check,
carries its sequence number in bytes 1 and 2, and carries in bytes 3 to 21 the fields of its kind, LIVE, WIN_HEAD,
WIN_SAMPLE, WIN_TAIL, EVENT, REPLY or RELAY, each at its place, the unused bytes 0. The FE_COMMAND on Front Out carries
bytes 2 to 21 of its REQUEST and a zero byte (R176). -/
def Obligations.TransmittedCellsAreSealed : Prop :=
  (∀ x : Sending, passesCheck (egressCell x) = true ∧ bitsTo (egressCell x) 2 16 = x.seq) ∧
  (∀ (seq : BitVec 16) (c : LiveCell),
     let x := egressCell { seq := seq, cell := .live c }
     bitsTo x 0 8 = 0x20#8 ∧ bitsTo x 3 8 = BitVec.ofNat 8 c.channel.val ∧ bitsTo x 7 32 = c.round ∧
     bitsTo x 10 24 = c.value ∧ bitsTo x 21 88 = 0) ∧
  (∀ (seq : BitVec 16) (c : WinHead),
     let x := egressCell { seq := seq, cell := .window (.head c) }
     bitsTo x 0 8 = 0x21#8 ∧ bitsTo x 4 16 = c.id ∧ bitsTo x 5 8 = BitVec.ofNat 8 c.entry.val ∧
     bitsTo x 6 8 = BitVec.ofNat 8 c.profile.val ∧ bitsTo x 10 32 = c.trigger ∧ bitsTo x 14 32 = c.first ∧
     bitsTo x 18 32 = c.last ∧ bitsTo x 20 16 = c.mask ∧ bitsTo x 21 8 = 0) ∧
  (∀ (seq : BitVec 16) (c : WinSample),
     let x := egressCell { seq := seq, cell := .window (.sample c) }
     bitsTo x 0 8 = 0x22#8 ∧ bitsTo x 4 16 = c.id ∧ bitsTo x 8 32 = c.round ∧
     bitsTo x 9 8 = BitVec.ofNat 8 c.channel.val ∧ bitsTo x 12 24 = c.value ∧
     bitsTo x 13 8 = (if c.complete then 1#8 else 0#8) ∧ bitsTo x 21 64 = 0) ∧
  (∀ (seq : BitVec 16) (c : WinTail),
     let x := egressCell { seq := seq, cell := .window (.tail c) }
     bitsTo x 0 8 = 0x23#8 ∧ bitsTo x 4 16 = c.id ∧ bitsTo x 8 32 = c.last ∧
     bitsTo x 10 16 = BitVec.ofNat 16 c.emitted ∧ bitsTo x 14 32 = BitVec.ofNat 32 c.cells ∧
     bitsTo x 16 16 = BitVec.ofNat 16 c.lost ∧
     (∀ n < 8, (flagBits c.flags)[n]? = some ((bitsTo x 17 8).getLsbD n)) ∧ bitsTo x 21 32 = 0) ∧
  (∀ (seq : BitVec 16) (c : EventCell),
     let x := egressCell { seq := seq, cell := .event c }
     bitsTo x 0 8 = 0x24#8 ∧ bitsTo x 3 8 = eventByte c.code ∧
     bitsTo x 7 32 = (match c.round with
       | some r => r
       | none => 0) ∧
     bitsTo x 11 32 = c.a ∧ bitsTo x 15 32 = c.b ∧ (bitsTo x 16 8).getLsbD 0 = c.round.isSome ∧
     (bitsTo x 16 8).getLsbD 1 = c.forced ∧ (bitsTo x 16 8).extractLsb' 2 6 = 0 ∧ bitsTo x 21 40 = 0) ∧
  (∀ (seq : BitVec 16) (c : ReplyCell),
     let x := egressCell { seq := seq, cell := .reply c }
     bitsTo x 0 8 = 0x25#8 ∧ bitsTo x 3 8 = c.tag ∧ bitsTo x 4 8 = c.kind ∧ bitsTo x 5 8 = resultByte c.result ∧
     bitsTo x 9 32 = c.value ∧ bitsTo x 13 32 = c.aux ∧ bitsTo x 21 64 = 0) ∧
  (∀ (seq : BitVec 16) (body : RelayBytes),
     let x := egressCell { seq := seq, cell := .relay body }
     bitsTo x 0 8 = 0x26#8 ∧ bitsTo x 21 152 = body) ∧
  (∀ q : Request,
     let x := feCommandCell (commandBytes q)
     passesCheck x = true ∧ bitsTo x 0 8 = 0x11#8 ∧ bitsTo x 21 8 = 0 ∧
     bitsTo x 20 160 = bitsTo (sealCell (requestHead q)) 21 160)

/-! ## The Round Assembler -/

/-- R6, R7: a ROUND cell first closes any round in assembly by supersession; the rest is as for a cell that comes to
an Assembler with no round in assembly. -/
def Obligations.SupersessionClosesRoundFirst : Prop :=
  ∀ (s : State) (dt : Nat) (n : Round) (declared : ChannelMask) (a : InAssembly),
    s.clock.refclk = true → s.asm.assembly = some a →
    exec (.roundCell dt n declared) s = exec (.roundCell 0 n declared) (roundClosed (elapse s dt) a false)

/-- R8, R9, R10, R13: the ROUND cells that are accepted without a restart, with no round in assembly: any cell in
DOWN, and a forward cell in RUNNING or LOST. -/
def Obligations.ForwardRoundAccepted : Prop :=
  ∀ (s : State) (dt : Nat) (n : Round) (declared : ChannelMask),
    s.clock.refclk = true → s.asm.assembly = none →
    let t := elapse s dt
    (s.asm.stream = .down → exec (.roundCell dt n declared) s = .next (roundOpened t n declared 0 true)) ∧
    (∀ last, s.asm.stream = .running last → distance last n = 1 →
      exec (.roundCell dt n declared) s = .next (roundOpened t n declared 0 false)) ∧
    (∀ last, s.asm.stream = .running last → 2 ≤ distance last n → distance last n ≤ 2147483647 →
      exec (.roundCell dt n declared) s = .next (roundOpened
        (gapCounted t (distance last n - 1)
          (streamEvent .roundGap n (last + 1) (BitVec.ofNat 32 (distance last n - 1))))
        n declared (distance last n - 1) false)) ∧
    (∀ last, s.asm.stream = .lost last → 1 ≤ distance last n → distance last n ≤ 2147483647 →
      exec (.roundCell dt n declared) s = .next (roundOpened
        (gapCounted t (distance last n - 1)
          (streamEvent .streamResumed n n (BitVec.ofNat 32 (distance last n - 1))))
        n declared (distance last n - 1) false))

/-- R11, R12, R13: the backward ROUND cells, with no round in assembly: the first two in RUNNING are refused; the
third in RUNNING, and any in LOST, is a restart. -/
def Obligations.BackwardRoundRefusedOrRestarts : Prop :=
  ∀ (s : State) (dt : Nat) (n last : Round) (declared : ChannelMask),
    s.clock.refclk = true → s.asm.assembly = none → (distance last n = 0 ∨ 2147483648 ≤ distance last n) →
    let t := elapse s dt
    (s.asm.stream = .running last → s.asm.backward ≤ 1 →
      exec (.roundCell dt n declared) s = .next { t with
        asm := { s.asm with backward := s.asm.backward + 1 }
        counters := { s.counters with backwardRoundsRefused := raise s.counters.backwardRoundsRefused 1 } }) ∧
    (s.asm.stream = .running last → 2 ≤ s.asm.backward →
      exec (.roundCell dt n declared) s = .next (roundOpened (restartAnnounced t last n) n declared 0 true)) ∧
    (s.asm.stream = .lost last →
      exec (.roundCell dt n declared) s = .next (roundOpened (restartAnnounced t last n) n declared 0 true))

/-- R14, R15, R16, R19: a SAMPLE cell with no round in assembly is counted stray, and one that does not match the round
in assembly is counted malformed; neither changes anything else. One that passes the checks joins the received mask,
is kept unless its channel is OFF, and for a PASS channel offers a LIVE cell; the round completes when the received
mask covers the declared mask. An FE_REPLY is offered as a RELAY with its nineteen bytes, in every stream state, and
changes nothing else. -/
def Obligations.SampleTakenOrDiscarded : Prop :=
  (∀ (s : State) (dt : Nat) (channel low : Byte) (value : Sample), s.clock.refclk = true →
     let t := elapse s dt
     (s.asm.assembly = none → exec (.sampleCell dt channel low value) s = .next { t with
       counters := { s.counters with straySamples := raise s.counters.straySamples 1 } }) ∧
     (∀ a, s.asm.assembly = some a →
       (15 < channel.toNat ∨ a.declared.getLsbD channel.toNat = false ∨ a.received.getLsbD channel.toNat = true ∨
         low ≠ a.round.extractLsb' 0 8) →
       exec (.sampleCell dt channel low value) s = .next { t with
         counters := { s.counters with malformedStreamCells := raise s.counters.malformedStreamCells 1 } })) ∧
  (∀ (s : State) (dt : Nat) (channel low : Byte) (value : Sample) (a : InAssembly) (ch : Fin 16),
     s.clock.refclk = true → s.asm.assembly = some a → channel.toNat = ch.val →
     a.declared.getLsbD ch.val = true → a.received.getLsbD ch.val = false → low = a.round.extractLsb' 0 8 →
     let mode := s.asm.modes.get ch
     let b : InAssembly := { a with
       received := a.received ||| BitVec.twoPow 16 ch.val
       kept := if mode = .off then a.kept else a.kept.set ch.val (some value) ch.isLt }
     let t := elapse s dt
     let u : State := { t with asm := { s.asm with assembly := some b } }
     let v := if mode = .pass then offered u (.live { channel := ch, round := a.round, value := value }) else u
     exec (.sampleCell dt channel low value) s =
       .next (if ∀ i : Fin 16, a.declared.getLsbD i.val = true → b.received.getLsbD i.val = true
         then roundClosed v b true else v)) ∧
  (∀ (s : State) (dt : Nat) (body : RelayBytes), s.clock.refclk = true →
     exec (.feReplyRelay dt body) s = .next (offered (elapse s dt) (.relay body)))

/-- R17 with notes/assumptions/3 (the model's choice of which expiry is due): the silence timer expires in RUNNING. -/
def Obligations.SilenceLosesStream : Prop :=
  ∀ s : State,
    (∀ e last, s.asm.silenceExpiry = some e → s.asm.stream = .running last → s.clock.refclk = true →
      (e ≤ s.clock.localTimer ∨ ∀ x ∈ runningExpiries s, e ≤ x) →
      let t : State := { s with clock := { s.clock with localTimer := max s.clock.localTimer e } }
      let u := match s.asm.assembly with
        | none => t
        | some a => roundClosed t a false
      exec .silenceExpiry s = .next (offered { u with
        asm := { u.asm with stream := .lost last, silenceExpiry := none }
        paths := { u.paths with
          asmToStore := u.paths.asmToStore ++ [.lost], asmToEvaluator := u.paths.asmToEvaluator ++ [.lost] } }
        (streamEvent .streamLost last last 0))) ∧
    (s.asm.silenceExpiry = none → exec .silenceExpiry s = .next s) ∧
    (∀ e, s.asm.silenceExpiry = some e → s.clock.localTimer < e → (∃ x ∈ runningExpiries s, x < e) →
      exec .silenceExpiry s = .next s)

/-- R20, R21, R22: a commit start puts its mark in at once or waits for the round in assembly; a node-reset start
discards the round in assembly and brings the stream to DOWN. -/
def Obligations.AssemblerTakesStarts : Prop :=
  ∀ s : State,
    (∀ e rest, s.paths.agentToAsm = .commit e :: rest →
      let t : State := { s with paths := { s.paths with agentToAsm := rest } }
      (s.asm.assembly = none → exec .commitStart s = .next (markInserted t e)) ∧
      (s.asm.assembly ≠ none →
        exec .commitStart s = .next { t with asm := { s.asm with pendingMark := some e } })) ∧
    (∀ rest, s.paths.agentToAsm = .nodeReset :: rest →
      exec .nodeResetStart s = .next { s with
        asm := { s.asm with
          stream := .down, assembly := none, backward := 0, pendingMark := none, silenceExpiry := none }
        paths := { s.paths with
          agentToAsm := rest
          asmToStore := s.paths.asmToStore ++ [.nodeReset]
          asmToEvaluator := s.paths.asmToEvaluator ++ [.nodeReset] } })

/-! ## The History Store -/

/-- R26, R27, R28, R29: an append. A span start record empties the ring without notices; for any other, the records
that it is not after leave from the oldest end, and then the oldest if 512 are held, each with an overwritten notice
before the stored notice. -/
def Obligations.AppendRemovesThenStores : Prop :=
  ∀ (s : State) (x : Record) (rest : List PathItem), s.paths.asmToStore = .record x :: rest →
    (x.spanStart = true → exec .recordAppend s = .next { s with
      store := { ring := [x], spanStart := some x.round }
      paths := { s.paths with
        asmToStore := rest, storeToEngine := s.paths.storeToEngine ++ [.stored x.round] } }) ∧
    (x.spanStart = false → ∃ reach gone : Nat,
      (∀ y ∈ s.store.ring.take reach, isAfter x.round y.round = false) ∧
      (∀ y, s.store.ring[reach]? = some y → isAfter x.round y.round = true) ∧
      reach ≤ s.store.ring.length ∧
      gone = (if 512 ≤ s.store.ring.length - reach then reach + 1 else reach) ∧
      exec .recordAppend s = .next { s with
        store := { s.store with ring := s.store.ring.drop gone ++ [x] }
        paths := { s.paths with
          asmToStore := rest
          storeToEngine := s.paths.storeToEngine ++
            (s.store.ring.take gone).map (fun y => .overwritten y.round) ++ [.stored x.round] } })

/-- R30, R31, R32, R33: the notices and the mark at the History Store. A LOST notice carries the newest round; with
an empty ring, which R31 rules out, it stops the machine (notes/assumptions/9, the model's choice). -/
def Obligations.StoreTakesNotices : Prop :=
  ∀ (s : State) (rest : List PathItem),
    (s.paths.asmToStore = .restart :: rest → exec .historyRestartNotice s = .next { s with
      store := { ring := [], spanStart := none }
      paths := { s.paths with
        asmToStore := rest, storeToEngine := s.paths.storeToEngine ++ [.flushedRestart] } }) ∧
    (s.paths.asmToStore = .nodeReset :: rest → exec .historyNodeResetNotice s = .next { s with
      store := { ring := [], spanStart := none }
      paths := { s.paths with
        asmToStore := rest, storeToEngine := s.paths.storeToEngine ++ [.flushedNodeReset] } }) ∧
    (∀ e, s.paths.asmToStore = .mark e :: rest → exec .historyEpochMark s = .next { s with
      paths := { s.paths with asmToStore := rest } }) ∧
    (∀ older newest, s.paths.asmToStore = .lost :: rest → s.store.ring = older ++ [newest] →
      exec .historyLostNotice s = .next { s with
        paths := { s.paths with
          asmToStore := rest, storeToEngine := s.paths.storeToEngine ++ [.lost newest.round] } }) ∧
    (s.paths.asmToStore = .lost :: rest → s.store.ring = [] →
      exec .historyLostNotice s = .fault .lostNoticeOnEmptyStore)

/-- R24, R31: every step from a state that meets the stream law completes, and keeps the law: at most 512 records of
one span in order, and no LOST notice meets an empty ring. -/
def Obligations.StreamLawKept : Prop :=
  ∀ s : State, StreamLaw s → ∃ t, step s = .next t ∧ StreamLaw t

/-- R34, R36, R192: for a store that meets the stream law, a round is HELD when a record has it, otherwise GAP, AHEAD or
BEHIND as it lies among, after or before the rounds held, and EMPTY in an empty ring; and what a READ of one sample
of the history answers. -/
def Obligations.HistoryReadClassifiesRound : Prop :=
  (∀ (s : State) (r : Round), StreamLaw s →
     (s.store.ring = [] → classify s.store r = .empty) ∧
     ∀ (oldest newest : Record), s.store.ring.head? = some oldest → s.store.ring.getLast? = some newest →
       (classify s.store r = .held ↔ ∃ x ∈ s.store.ring, x.round = r) ∧
       (classify s.store r = .gap ↔ (∀ x ∈ s.store.ring, x.round ≠ r) ∧
         isAfter r oldest.round = true ∧ isAfter newest.round r = true ∧
         distance oldest.round r < distance oldest.round newest.round) ∧
       (classify s.store r = .ahead ↔ isAfter r newest.round = true ∧
         distance oldest.round newest.round < distance oldest.round r) ∧
       (classify s.store r = .behind ↔ isAfter r newest.round = false ∧
         distance oldest.round newest.round < distance oldest.round r)) ∧
  (∀ (s : State) (q : Request), StreamLaw s →
     (15 < q.index.toNat → answerHistory s.store q = { result := .badArg, value := 0, aux := 0 }) ∧
     ∀ ch : Fin 16, q.index.toNat = ch.val →
       (∀ x ∈ s.store.ring, x.round = q.value →
         (∀ v, x.values.get ch = some v → answerHistory s.store q =
           { result := .ok, value := v.signExtend 32, aux := x.epoch.setWidth 32 }) ∧
         (x.values.get ch = none → answerHistory s.store q = { result := .notHeld, value := 0, aux := 0 })) ∧
       ((∀ x ∈ s.store.ring, x.round ≠ q.value) → answerHistory s.store q =
         { result := .notHeld, value := 0, aux := match classify s.store q.value with
           | .held => 0
           | .gap => 1
           | .ahead => 2
           | .behind => 3
           | .empty => 4 }))

/-! ## The Condition Evaluator -/

/-- R40: Table 3-2, exact; the release test is met only where the true test fails, and with H = 0 wherever it does; a
unit whose release bound lies outside the sample range does not release. With it the two tests of Table 3-3, on a
step y. -/
def Obligations.ConditionTestsFollowTables : Prop :=
  ∀ (e : ChannelEntry) (v : Sample),
    let x := v.toInt
    let a := e.levelA.toInt
    let b := e.levelB.toInt
    let h : Int := e.hysteresis
    (e.condition = .above → (trueTest e x = true ↔ a < x) ∧ (releaseTest e x = true ↔ x ≤ a - h) ∧
      (a - h < -8388608 → releaseTest e x = false)) ∧
    (e.condition = .below → (trueTest e x = true ↔ x < a) ∧ (releaseTest e x = true ↔ a + h ≤ x) ∧
      (8388607 < a + h → releaseTest e x = false)) ∧
    (e.condition = .outside → (trueTest e x = true ↔ x < a ∨ b < x) ∧
      (releaseTest e x = true ↔ a + h ≤ x ∧ x ≤ b - h)) ∧
    (e.condition = .inside → (trueTest e x = true ↔ a ≤ x ∧ x ≤ b) ∧
      (releaseTest e x = true ↔ x < a - h ∨ b + h < x)) ∧
    (e.condition ∈ [.above, .below, .outside, .inside] →
      (releaseTest e x = true → trueTest e x = false) ∧
      (e.hysteresis = 0 → releaseTest e x = !trueTest e x)) ∧
    ∀ y : Int,
      (e.condition = .riseStep → (trueTest e y = true ↔ a < y) ∧ (releaseTest e y = true ↔ y ≤ a - h)) ∧
      (e.condition = .fallStep → (trueTest e y = true ↔ y < -a) ∧ (releaseTest e y = true ↔ -a + h ≤ y))

namespace Sys2Proof.Machine.Stated

/-- R41, R45: the value or step that a present, evaluable sample is judged by; none otherwise. -/
def judged (e : ChannelEntry) (u : CondUnit) (gap : Nat) (value : Option Sample) : Option Int :=
  if e.condition = .riseStep ∨ e.condition = .fallStep then
    match value, u.previous with
    | some v, some p => if gap = 0 then some (v.toInt - p.toInt) else none
    | _, _ => none
  else value.map BitVec.toInt

/-- R44, R46: the true samples in a row behind a unit that is not ACTIVE. -/
def trueBefore (u : CondUnit) (gap : Nat) : Nat :=
  match u.state with
  | .qualifying k => if gap = 0 then k else 0
  | .idle => 0
  | .active => 0

/-- R46: the unit asserts in this record. -/
def asserts (e : ChannelEntry) (u : CondUnit) (gap : Nat) (value : Option Sample) : Bool :=
  evaluating e && decide (u.state ≠ .active) && decide (trueBefore u gap + 1 = e.qualify) &&
    match judged e u gap value with
    | some x => trueTest e x
    | none => false

/-- R47: the unit releases in this record. -/
def releases (e : ChannelEntry) (u : CondUnit) (gap : Nat) (value : Option Sample) : Bool :=
  evaluating e && decide (u.state = .active) &&
    match judged e u gap value with
    | some x => releaseTest e x
    | none => false

/-- R49: the duration of a release at round `r`; an ACTIVE unit has a last assert round (R42). -/
def durationOf (u : CondUnit) (r : Round) : Nat :=
  match u.lastAssert with
  | some a => distance a r
  | none => 0

/-- R44 to R47: the state of an evaluating unit that neither asserts nor releases. -/
def quietState (e : ChannelEntry) (u : CondUnit) (gap : Nat) (value : Option Sample) : UnitState :=
  match u.state, judged e u gap value with
  | .active, _ => .active
  | _, some x => if trueTest e x then .qualifying (trueBefore u gap + 1) else .idle
  | _, none => .idle

/-- R43 to R50: a unit after the record of round `r`. -/
def unitAfter (e : ChannelEntry) (u : CondUnit) (r : Round) (gap : Nat) (value : Option Sample) : CondUnit :=
  if evaluating e = false then u
  else if asserts e u gap value then
    { u with state := .active, previous := value, lastAssert := some r, assertCount := min (u.assertCount + 1) 65535 }
  else if releases e u gap value then
    { u with state := .idle, previous := value, lastRelease := some r, lastDuration := some (durationOf u r) }
  else { u with state := quietState e u gap value, previous := value }

end Sys2Proof.Machine.Stated

/-- R43 to R52: a record is evaluated: every unit moves as Section 3.4 states, and one verdict goes to the Trigger
Table with the asserted and active sets and the released list in ascending channel order. -/
def Obligations.RecordEvaluatedIntoVerdict : Prop :=
  ∀ (s : State) (x : Record) (rest : List PathItem), s.paths.asmToEvaluator = .record x :: rest →
    let e := fun i : Fin 16 => s.evaluator.entries.get i
    let u := fun i : Fin 16 => s.evaluator.units.get i
    let after := fun i : Fin 16 => unitAfter (e i) (u i) x.round x.gapBefore (x.values.get i)
    ∃ v : Verdict,
      exec .recordEvaluation s = .next { s with
        evaluator := { s.evaluator with units := Vector.ofFn after }
        paths := { s.paths with
          asmToEvaluator := rest, evaluatorToTable := s.paths.evaluatorToTable ++ [.verdict v] } } ∧
      v.round = x.round ∧
      (∀ i : Fin 16, v.asserted.getLsbD i.val = asserts (e i) (u i) x.gapBefore (x.values.get i)) ∧
      (∀ i : Fin 16, v.active.getLsbD i.val = decide ((after i).state = .active)) ∧
      v.released = (List.finRange 16).filterMap fun i =>
        if releases (e i) (u i) x.gapBefore (x.values.get i) then some (i, durationOf (u i) x.round) else none

/-- R52 to R56: the notices and the mark at the Condition Evaluator, each passed on. -/
def Obligations.EvaluatorTakesNotices : Prop :=
  ∀ (s : State) (rest : List PathItem),
    let sent := fun (x : VerdictItem) (f : Fin 16 → CondUnit → CondUnit) => ({ s with
      evaluator := { s.evaluator with units := Vector.ofFn fun i => f i (s.evaluator.units.get i) }
      paths := { s.paths with
        asmToEvaluator := rest, evaluatorToTable := s.paths.evaluatorToTable ++ [x] } } : State)
    (s.paths.asmToEvaluator = .lost :: rest → exec .evaluatorLostNotice s =
      .next (sent .lost fun _ u => { u with
        state := if u.state = .active then .active else .idle, previous := none })) ∧
    (s.paths.asmToEvaluator = .restart :: rest → exec .evaluatorRestartNotice s =
      .next (sent .restart fun _ u => { u with state := .idle, previous := none })) ∧
    (s.paths.asmToEvaluator = .nodeReset :: rest → exec .evaluatorNodeResetNotice s =
      .next (sent .nodeReset fun _ _ => { state := .idle, previous := none, lastAssert := none, lastRelease := none,
                                          lastDuration := none, assertCount := 0 })) ∧
    (∀ n, s.paths.asmToEvaluator = .mark n :: rest → exec .evaluatorEpochMark s = .next { s with
      evaluator :=
        { entries := s.agent.staging.channels
          units := Vector.ofFn fun i =>
            if s.evaluator.entries.get i = s.agent.staging.channels.get i then s.evaluator.units.get i
            else { state := .idle, previous := none, lastAssert := none, lastRelease := none, lastDuration := none,
                   assertCount := 0 }
          epoch := n }
      paths := { s.paths with
        asmToEvaluator := rest, evaluatorToTable := s.paths.evaluatorToTable ++ [.mark n] } })

/-- R39, R42, R151: every step keeps each unit in range: an inert unit IDLE without a previous value, a count from 1
to Q - 1 while QUALIFYING, a last assert round while ACTIVE. -/
def Obligations.UnitLawKept : Prop :=
  ∀ s t : State, UnitLaw s → step s = .next t → UnitLaw t

/-! ## The Trigger Table -/

namespace Sys2Proof.Machine.Stated

/-- R62: the state an entry is judged in. -/
def judgedState (e : TriggerEntry) (l : EntryLive) (r : Round) : EntryState :=
  match l.state with
  | .holdoff base => if e.holdoff < distance base r then .armed else l.state
  | _ => l.state

/-- R63 to R67: entry `i` fires in verdict `v`, by force or by its test. -/
def fires (t : TriggerTable) (v : Verdict) (i : Fin 8) : Bool :=
  (t.live.get i).forceMark ||
    (decide (judgedState (t.entries.get i) (t.live.get i) v.round = .armed) &&
      entryTest (t.entries.get i) (t.live.get i) t.live t.previousVerdict v)

/-- R69: the number of additions to the current compare of entry `i` by a fire at round `r`. -/
def additions (t : TriggerTable) (r : Round) (i : Fin 8) : Nat :=
  advances (t.entries.get i) (t.live.get i).compare r

/-- R61, R62, R67 to R69: the live state of entry `i` after verdict `v`, before chain arming. -/
def entryAfter (t : TriggerTable) (v : Verdict) (i : Fin 8) : EntryLive :=
  let e := t.entries.get i
  let l := t.live.get i
  let st := judgedState e l v.round
  if fires t v i then
    { state :=
        if st = .armed then
          if e.policy = .single then .fired else if e.holdoff = 0 then .armed else .holdoff v.round
        else st
      fireCount := min (l.fireCount + 1) 65535
      lastFire := some v.round
      compare := l.compare + BitVec.ofNat 32 (additions t v.round i * e.interval)
      forceMark := false }
  else { l with state := st }

/-- R73: an entry in `st` that is armed. -/
def armedFrom (st : EntryState) : EntryState := if st = .disarmed ∨ st = .fired then .armed else st

/-- R73: entry `i` is named in a chain mask recorded by a fire of verdict `v`. -/
def chainNamed (t : TriggerTable) (v : Verdict) (i : Fin 8) : Bool :=
  (List.finRange 8).any fun j => fires t v j && (t.entries.get j).chainMask.getLsbD i.val

/-- The entries that fire in verdict `v`, in index order. -/
def fired (t : TriggerTable) (v : Verdict) : List (Fin 8) := (List.finRange 8).filter fun i => fires t v i

/-- R69, R72: the events of the fire of entry `i`. -/
def eventsOf (t : TriggerTable) (v : Verdict) (i : Fin 8) : List EventCell :=
  let forced := (t.live.get i).forceMark
  (if 2 ≤ additions t v.round i then
    [{ code := .scheduleSlip, round := some v.round, a := BitVec.ofNat 32 i.val,
       b := BitVec.ofNat 32 (additions t v.round i - 1), forced := forced }] else []) ++
  (if (t.entries.get i).event then
    [{ code := .triggerFired, round := some v.round, a := BitVec.ofNat 32 i.val,
       b := BitVec.ofNat 32 (min ((t.live.get i).fireCount + 1) 65535), forced := forced }] else [])

end Sys2Proof.Machine.Stated

/-- R61 to R73: a verdict is handled whole: the entries' new states, the open requests, one line step, the events,
chain arming last. -/
def Obligations.VerdictFiresEntries : Prop :=
  ∀ (s : State) (v : Verdict) (rest : List VerdictItem), s.paths.evaluatorToTable = .verdict v :: rest →
    exec .verdict s = .next { s with
      table := { s.table with
        live := Vector.ofFn fun i =>
          if chainNamed s.table v i then
            { entryAfter s.table v i with state := armedFrom (entryAfter s.table v i).state }
          else entryAfter s.table v i
        previousVerdict := some v.round }
      paths := { s.paths with
        evaluatorToTable := rest
        tableToEngine := s.paths.tableToEngine ++ (fired s.table v).filterMap fun i =>
          (s.table.entries.get i).profile.map fun k => .request { entry := i, round := v.round, profile := k }
        tableToLines := s.paths.tableToLines ++ [.step
          { round := v.round
            actions := (fired s.table v).filterMap fun i => (s.table.entries.get i).line.map fun n =>
              { line := n, action := (s.table.entries.get i).lineAction,
                length := (s.table.entries.get i).pulseLength } }]
        tableOffers := s.paths.tableOffers ++ (fired s.table v).flatMap (eventsOf s.table v) } }

/-- R63 to R66 with R2: the tests of the five combines; `w` is the snapshot of the entries as the verdict was taken, `p`
the previous verdict round. R69: a fire of a SCHEDULE entry with an interval adds it while the current compare is not
after r, and no more often; without an interval, or for another combine, it adds nothing. -/
def Obligations.CombineTestsAndSchedule : Prop :=
  (∀ (e : TriggerEntry) (l : EntryLive) (w : Vector EntryLive 8) (p : Option Round) (v : Verdict),
     let named := fun i : Fin 16 => e.sources.getLsbD i.val = true
     let assertedSource := ∃ i, named i ∧ v.asserted.getLsbD i.val = true
     (e.combine = .any → (entryTest e l w p v = true ↔ assertedSource)) ∧
     (e.combine = .all → (entryTest e l w p v = true ↔
       assertedSource ∧ ∀ i, named i → v.active.getLsbD i.val = true)) ∧
     (e.combine = .after → (entryTest e l w p v = true ↔ assertedSource ∧
       ∃ f, (w.get e.refEntry).lastFire = some f ∧ 1 ≤ distance f v.round ∧ distance f v.round ≤ e.within)) ∧
     (e.combine = .width → (entryTest e l w p v = true ↔
       ∃ i d, (i, d) ∈ v.released ∧ named i ∧ e.widthMin ≤ d ∧ d ≤ e.widthMax)) ∧
     (e.combine = .schedule → (entryTest e l w p v = true ↔
       (∃ q, p = some q ∧ 1 ≤ distance q l.compare ∧ distance q l.compare ≤ distance q v.round) ∨
       (p = none ∧ l.compare = v.round)))) ∧
  (∀ (e : TriggerEntry) (c r : Round), e.interval ≤ 2147483647 →
     (e.combine = .schedule → 1 ≤ e.interval →
       isAfter (c + BitVec.ofNat 32 (advances e c r * e.interval)) r = true ∧
       ∀ m < advances e c r, isAfter (c + BitVec.ofNat 32 (m * e.interval)) r = false) ∧
     (e.combine ≠ .schedule ∨ e.interval = 0 → advances e c r = 0))

/-- R74 to R78, R80: ARM, DISARM and FIRE are done and acknowledged, or refused while held, the acknowledgement carrying
the previous verdict round either way. A safe-state notice and a CLOSE notice disarm every entry and clear every force
mark; the safe state also holds the table. -/
def Obligations.TableTakesDirectNotices : Prop :=
  (∀ (s : State) (rest : List TriggerNotice),
     let answered := fun (f : Fin 8 → EntryLive → EntryLive) => ({ s with
       table := { s.table with live :=
         if s.table.held then s.table.live else Vector.ofFn fun i => f i (s.table.live.get i) }
       paths := { s.paths with
         agentToTable := rest
         tableAcks := s.paths.tableAcks ++ [{ refused := s.table.held, round := s.table.previousVerdict }] } } : State)
     (∀ m, s.paths.agentToTable = .arm m :: rest → exec .armNotice s =
       .next (answered fun i l => if m.getLsbD i.val then { l with state := armedFrom l.state } else l)) ∧
     (∀ m, s.paths.agentToTable = .disarm m :: rest → exec .disarmNotice s =
       .next (answered fun i l => if m.getLsbD i.val then { l with state := .disarmed, forceMark := false } else l)) ∧
     (∀ j, s.paths.agentToTable = .fire j :: rest → exec .fireNotice s =
       .next (answered fun i l => if i = j then { l with forceMark := true } else l))) ∧
  (∀ (s : State) (rest : List TriggerNotice),
     let disarmed := fun (held : Bool) => ({ s with
       table := { s.table with
         held := held
         live := Vector.ofFn fun i => { s.table.live.get i with state := .disarmed, forceMark := false } }
       paths := { s.paths with agentToTable := rest } } : State)
     (s.paths.agentToTable = .safeState :: rest → exec .triggerSafeState s = .next (disarmed true)) ∧
     (s.paths.agentToTable = .close :: rest → exec .triggerClose s = .next (disarmed s.table.held)))

/-- R79: a session-open notice clears the held flag and changes no entry; taken while the table is not held it changes
nothing of the table. A DISARMED entry then becomes ARMED by ARM, by a chain mask of a fire, or by the adoption of a
changed entry with arm at commit set. -/
def Obligations.SessionOpenReleasesTable : Prop :=
  ∀ (s : State) (rest : List TriggerNotice), s.paths.agentToTable = .sessionOpen :: rest →
    exec .triggerSessionOpen s = .next { s with
      table := { s.table with held := false }, paths := { s.paths with agentToTable := rest } } ∧
    (s.table.held = false → ({ s.table with held := false } : TriggerTable) = s.table) ∧
    ∀ (c : Instr) (u t : State), exec c u = .next t →
      ∀ i : Fin 8, (u.table.live.get i).state = .disarmed → (t.table.live.get i).state = .armed →
        c = .armNotice ∨
        (c = .triggerEpochMark ∧ u.table.entries.get i ≠ u.agent.staging.triggers.get i ∧
          (u.agent.staging.triggers.get i).armAtCommit = true) ∨
        (c = .verdict ∧ ∃ v rest, u.paths.evaluatorToTable = .verdict v :: rest ∧ chainNamed u.table v i = true)

/-- R81 to R84: RESTART, LOST, the mark and the node-reset notice at the Trigger Table, each passed on. -/
def Obligations.TableTakesStreamNotices : Prop :=
  ∀ (s : State) (rest : List VerdictItem),
    (s.paths.evaluatorToTable = .restart :: rest → exec .triggerRestartNotice s = .next { s with
      table := { s.table with
        live := Vector.ofFn fun i =>
          { s.table.live.get i with
            state := if (s.table.live.get i).state = .disarmed then .disarmed
              else if (s.table.live.get i).state = .fired then .fired else .armed
            lastFire := none }
        previousVerdict := none }
      paths := { s.paths with evaluatorToTable := rest, tableToLines := s.paths.tableToLines ++ [.restart] } }) ∧
    (s.paths.evaluatorToTable = .lost :: rest → exec .triggerLostNotice s = .next { s with
      paths := { s.paths with evaluatorToTable := rest, tableToLines := s.paths.tableToLines ++ [.lost] } }) ∧
    (∀ n, s.paths.evaluatorToTable = .mark n :: rest → exec .triggerEpochMark s = .next { s with
      table := { s.table with
        entries := s.agent.staging.triggers
        live := Vector.ofFn fun i =>
          if s.table.entries.get i = s.agent.staging.triggers.get i then s.table.live.get i
          else { state := if (s.agent.staging.triggers.get i).armAtCommit = true ∧ s.table.held = false
                   then .armed else .disarmed
                 fireCount := 0, lastFire := none, compare := (s.agent.staging.triggers.get i).compare,
                 forceMark := false }
        epoch := n }
      paths := { s.paths with
        evaluatorToTable := rest
        tableToEngine := s.paths.tableToEngine ++ [.mark n], tableToLines := s.paths.tableToLines ++ [.mark n] } }) ∧
    (s.paths.evaluatorToTable = .nodeReset :: rest → exec .triggerNodeResetNotice s = .next { s with
      table := { s.table with
        live := Vector.ofFn fun i =>
          { state := .disarmed, fireCount := 0, lastFire := none, compare := (s.table.entries.get i).compare,
            forceMark := false }
        previousVerdict := none }
      paths := { s.paths with
        evaluatorToTable := rest
        tableToEngine := s.paths.tableToEngine ++ [.nodeReset]
        tableToLines := s.paths.tableToLines ++ [.nodeReset] } })

/-- R60, R112, R119, R125: every step keeps the held blocks as their safe states left them: no entry ARMED, in
HOLDOFF or marked, every line INACTIVE, no window OPEN or DRAINING; and a disabled line INACTIVE. -/
def Obligations.HeldLawKept : Prop :=
  ∀ s t : State, HeldLaw s → step s = .next t → HeldLaw t

/-! ## The Window Engine -/

namespace Sys2Proof.Machine.Stated

/-- R101, R117: the engine has done an event that started from `s` and left `t`; the service pass runs, and a READ
meanwhile sees the engine as it stood in `s`. -/
def thenPass (s t : State) : State :=
  resumePass { t with engine := { t.engine with
    pass := some { stage := .settling
                   before := { windows := s.engine.windows, held := s.engine.held, nextId := s.engine.nextId } } } }

/-- R94: an open request is refused for a reason, 1 for HELD and 2 for FULL. -/
def openRefused (s : State) (q : OpenRequest) (reason : Word32) : State :=
  { s with
    counters := { s.counters with windowsRefused := raise s.counters.windowsRefused 1 }
    paths := { s.paths with
      engineOffers := s.paths.engineOffers ++ [.event
      { code := .windowRefused
        round := some (match s.engine.frontier with
          | some f => if atOrAfter f q.round then f else q.round
          | none => q.round)
        a := BitVec.ofNat 32 q.entry.val, b := reason, forced := false }] } }

/-- R90: the windows that a retrigger would match, in list order. -/
def matches_ (s : State) (q : OpenRequest) : List Window :=
  s.engine.windows.filter fun w => decide (w.state = .opened ∧ w.entry = q.entry ∧ w.profile = q.profile)

/-- R91: the candidate: the earlier of T + Q and F + X - 1. -/
def candidateOf (w : Window) (t : Round) : Round :=
  let x := t + BitVec.ofNat 32 w.post
  let y := w.first + BitVec.ofNat 32 w.limit - 1
  if atOrAfter y x then x else y

/-- R109: a window that becomes DRAINING, and CLOSING if its cursor is already after L. -/
def draining (w : Window) : Window := { w with state := if isAfter w.cursor w.last then .closing else .draining }

/-- R93, step 2: the first round, from the span start as the engine reads it. -/
def firstOf (span : Option Round) (t : Round) (pre : Nat) : Round :=
  match span with
  | none => t
  | some p =>
    if atOrAfter t p = false then t
    else if atOrAfter (t - BitVec.ofNat 32 pre) p then t - BitVec.ofNat 32 pre else p

/-- R93: the window that an open request creates, given its id. That R109 is checked at its creation, and that L is the
frontier under the lost flag even where that is before F, is notes/assumptions/17 (DEDUCED); that L is L0 under the lost
flag with no frontier is notes/assumptions/20 (DEDUCED). -/
def newWindow (s : State) (q : OpenRequest) (id : WindowId) : Window :=
  let k := s.engine.profiles.get q.profile
  let f := firstOf (if s.engine.balance = 0 then s.store.spanStart else none) q.round k.pre
  let w : Window :=
    { id := id, entry := q.entry, profile := q.profile, pre := k.pre, post := k.post, mask := k.mask, limit := k.limit
      trigger := q.round, first := f, last := q.round + BitVec.ofNat 32 k.post, cursor := f, headSent := false
      state := .opened
      flags := { shortPre := decide (f ≠ q.round - BitVec.ofNat 32 k.pre), extended := false, truncated := false,
                 gap := false, streamLost := false, aborted := false }
      emitted := 0, cells := 0, lost := 0 }
  match s.engine.frontier with
  | none => if s.engine.lostFlag then draining { w with flags := { w.flags with streamLost := true } } else w
  | some y =>
    if atOrAfter y w.last then draining w
    else if s.engine.lostFlag then
      draining { w with last := y, flags := { w.flags with streamLost := true } }
    else w

/-- The rounds from the cursor to L, if the cursor is at or before L. -/
def roundsLeft (w : Window) : Nat := if atOrAfter w.last w.cursor then distance w.cursor w.last + 1 else 0

/-- A window in OPEN or DRAINING. -/
def live (w : Window) : Bool := decide (w.state = .opened ∨ w.state = .draining)

/-- R98: the windows after a flush. -/
def flushed (ws : List Window) : List Window := ws.map fun w =>
  if live w then { w with
    lost := w.lost + roundsLeft w
    cursor := if atOrAfter w.last w.cursor then w.last + 1 else w.cursor
    flags := { w.flags with truncated := true }
    state := .closing }
  else w

/-- R98, R116: the state after a flush: the windows, the counter, the frontier and the lost flag. -/
def flushDone (s : State) : State :=
  { s with
    engine := { s.engine with windows := flushed s.engine.windows, frontier := none, lostFlag := false }
    counters := { s.counters with
      windowsTruncated := raise s.counters.windowsTruncated
        (s.engine.windows.countP fun w => live w && !w.flags.truncated) } }

/-- R88: the number of rounds from `f` to `l` inclusive, 0 with `l` before `f`. -/
def roundsBetween (f l : Round) : Nat := if atOrAfter l f then distance f l + 1 else 0

/-- R97: an OPEN window whose L becomes `l`. The rounds after `l` that its cursor has passed leave its rounds lost
(notes/assumptions/21, DEDUCED). -/
def shortened (l : Round) (w : Window) : Window :=
  draining { w with
    last := l
    lost := w.lost - (distance w.first w.cursor - roundsBetween w.first l)
    flags := { w.flags with streamLost := true } }

/-- R112, R115: the state once every window in progress has ended: aborted if its head was sent, removed if not. An
aborted window keeps its cursor (notes/assumptions/10, DEDUCED). -/
def aborted (s : State) : State :=
  { s with
    engine := { s.engine with
      windows := (s.engine.windows.filter fun w => !(live w && !w.headSent)).map fun w =>
        if live w then { w with
          lost := w.lost + roundsLeft w, flags := { w.flags with aborted := true }, state := .closing } else w }
    counters := { s.counters with
      windowsDiscarded := raise s.counters.windowsDiscarded
        (s.engine.windows.countP fun w => live w && !w.headSent) } }

end Sys2Proof.Machine.Stated

/-- R90, R91, R92, R94: an open request that opens no window: refused while held (reason 1) or with the list full
(reason 2), or a retrigger under EXTEND or IGNORE. -/
def Obligations.OpenRequestRefusedOrRetrigger : Prop :=
  ∀ (s : State) (q : OpenRequest) (rest : List EngineItem),
    s.engine.pass = none → s.paths.tableToEngine = .request q :: rest →
    let t : State := { s with paths := { s.paths with tableToEngine := rest } }
    let overlap := (s.engine.profiles.get q.profile).overlap
    (s.engine.held = true → exec .openRequest s = .next (thenPass s (openRefused t q 1))) ∧
    (s.engine.held = false → (overlap = .separate ∨ matches_ s q = []) → 6 ≤ s.engine.windows.length →
      exec .openRequest s = .next (thenPass s (openRefused t q 2))) ∧
    (s.engine.held = false → overlap = .ignore → matches_ s q ≠ [] →
      exec .openRequest s = .next (thenPass s { t with
        counters := { s.counters with retriggersIgnored := raise s.counters.retriggersIgnored 1 } })) ∧
    (∀ older w, s.engine.held = false → overlap = .extend → matches_ s q = older ++ [w] →
      exec .openRequest s = .next (thenPass s
        (if isAfter (candidateOf w q.round) w.last then { t with
          engine := { s.engine with windows := s.engine.windows.map fun x =>
            if x.id = w.id then { x with
              last := candidateOf w q.round, flags := { x.flags with extended := true } } else x }
          counters := { s.counters with windowsExtended := raise s.counters.windowsExtended 1 } }
        else { t with
          counters := { s.counters with retriggersIgnored := raise s.counters.retriggersIgnored 1 } })))

/-- R87, R93: an open request that creates a window at the end of the list, under the first id from the next window id
on that no window of the list holds. What R93 leaves open is read as notes/assumptions/17 says (R109 is checked at
creation; under the lost flag L is the frontier even before F) and as notes/assumptions/20 says (under the lost flag
with no frontier L is L0). -/
def Obligations.OpenRequestCreatesWindow : Prop :=
  ∀ (s : State) (q : OpenRequest) (rest : List EngineItem),
    s.engine.pass = none → s.paths.tableToEngine = .request q :: rest → s.engine.held = false →
    ((s.engine.profiles.get q.profile).overlap = .separate ∨ matches_ s q = []) → s.engine.windows.length ≤ 5 →
    ∃ rises ≤ 5,
      let id := s.engine.nextId + BitVec.ofNat 16 rises
      (∀ w ∈ s.engine.windows, w.id ≠ id) ∧
      (∀ j < rises, ∃ w ∈ s.engine.windows, w.id = s.engine.nextId + BitVec.ofNat 16 j) ∧
      exec .openRequest s = .next (thenPass s { s with
        engine := { s.engine with windows := s.engine.windows ++ [newWindow s q id], nextId := id + 1 }
        counters := { s.counters with windowsOpened := raise s.counters.windowsOpened 1 }
        paths := { s.paths with tableToEngine := rest } })

/-- R95 to R99: the History Store's notices at the Window Engine; while the reset balance is positive they change no
window, frontier or lost flag. R101, R111 to R115: room, tail transmitted (the CLOSED window's slot is released), safe
state, session open, epoch mark and node reset. Each ends with a service pass. The acknowledgement of a mark or a node
reset is due from then on, and goes to the Agent when that pass ends (notes/assumptions/24, DEDUCED). An aborted
window keeps its cursor, which R112 and R115 do not say (notes/assumptions/10, DEDUCED); a window that a LOST notice
shortens no longer counts the rounds after its new L, which R97 does not say (notes/assumptions/21, DEDUCED). -/
def Obligations.EngineTakesNotices : Prop :=
  (∀ (s : State) (rest : List StoreNotice), s.engine.pass = none →
     let t : State := { s with paths := { s.paths with storeToEngine := rest } }
     (∀ r, s.paths.storeToEngine = .stored r :: rest →
       (0 < s.engine.balance → exec .storedNotice s = .next (thenPass s t)) ∧
       (s.engine.balance ≤ 0 → exec .storedNotice s = .next (thenPass s { t with
         engine := { s.engine with
           frontier := some r, lostFlag := false
           windows := s.engine.windows.map fun w =>
             if w.state = .opened ∧ atOrAfter r w.last = true then draining w else w } }))) ∧
     (∀ r, s.paths.storeToEngine = .overwritten r :: rest → exec .overwrittenNotice s = .next (thenPass s t)) ∧
     (∀ n, s.paths.storeToEngine = .lost n :: rest →
       (0 < s.engine.balance → exec .windowLostNotice s = .next (thenPass s t)) ∧
       (s.engine.balance ≤ 0 → exec .windowLostNotice s = .next (thenPass s { t with
         engine := { s.engine with
           lostFlag := true
           windows := s.engine.windows.map fun w =>
             if w.state = .opened then shortened (if atOrAfter n w.last then w.last else n) w else w } }))) ∧
     (s.paths.storeToEngine = .flushedRestart :: rest →
       (0 < s.engine.balance → exec .flushedRestartNotice s = .next (thenPass s t)) ∧
       (s.engine.balance ≤ 0 → exec .flushedRestartNotice s = .next (thenPass s (flushDone t)))) ∧
     (s.paths.storeToEngine = .flushedNodeReset :: rest →
       let u := if 0 < s.engine.balance then t else flushDone t
       exec .flushedNodeResetNotice s =
         .next (thenPass s { u with engine := { u.engine with balance := s.engine.balance - 1 } }))) ∧
  (∀ s : State, s.engine.pass = none →
     (∀ rest, s.paths.queueToEngine = .room :: rest →
       exec .roomNotice s = .next (thenPass s { s with paths := { s.paths with queueToEngine := rest } })) ∧
     (∀ i rest, s.paths.queueToEngine = .tailTransmitted i :: rest →
       exec .tailTransmittedNotice s = .next (thenPass s { s with
         engine := { s.engine with
           windows := s.engine.windows.filter fun w => decide (w.id ≠ i ∨ w.state ≠ .closed) }
         paths := { s.paths with queueToEngine := rest } })) ∧
     (∀ rest, s.paths.agentToEngine = .safeState :: rest →
       let t := aborted { s with paths := { s.paths with agentToEngine := rest } }
       exec .windowSafeState s = .next (thenPass s { t with engine := { t.engine with held := true } })) ∧
     (∀ rest, s.paths.agentToEngine = .sessionOpen :: rest →
       exec .windowSessionOpen s = .next (thenPass s { s with
         engine := { s.engine with held := false }, paths := { s.paths with agentToEngine := rest } })) ∧
     (∀ n rest, s.paths.tableToEngine = .mark n :: rest →
       exec .windowEpochMark s = .next (thenPass s { s with
         engine := { s.engine with profiles := s.agent.staging.profiles, epoch := n, ackDue := some (.mark n) }
         paths := { s.paths with tableToEngine := rest } })) ∧
     (∀ rest, s.paths.tableToEngine = .nodeReset :: rest →
       let t := aborted { s with paths := { s.paths with tableToEngine := rest } }
       exec .windowNodeResetNotice s = .next (thenPass s { t with
         engine := { t.engine with
           frontier := none, lostFlag := false, balance := s.engine.balance + 1, ackDue := some .nodeReset } })))

namespace Sys2Proof.Machine.Stated

/-- The cursor of a window in progress is at or before L. -/
def InReach (w : Window) : Prop := live w = true ∧ atOrAfter w.last w.cursor = true

/-- R109: the cursor of `w` has passed L, which closes it if it is DRAINING. -/
def pastLast (w : Window) : Window := { w with state := if w.state = .draining then .closing else w.state }

/-- R103: what becomes of a behind window, the oldest round held being `o`. -/
def behindMoved (o : Round) (w : Window) : Window :=
  let flags := { w.flags with truncated := true }
  if atOrAfter w.last o then { w with cursor := o, lost := w.lost + distance w.cursor o, flags := flags }
  else pastLast { w with cursor := w.last + 1, lost := w.lost + (distance w.cursor w.last + 1), flags := flags }

/-- R104: what becomes of a window that skips `k` gap rounds. -/
def gapMoved (k : Nat) (w : Window) : Window :=
  let x := { w with cursor := w.cursor + BitVec.ofNat 32 k, lost := w.lost + k, flags := { w.flags with gap := true } }
  if k = distance w.cursor w.last + 1 then pastLast x else x

/-- R103, R104, R109: step 2 of a service pass makes `v` of window `w`: a behind window moves to the oldest round held
or past L; one on a gap skips every gap round up to the first round that is none, or past L; any other is unchanged. -/
def Settled (h : Store) (w v : Window) : Prop :=
  (InReach w → classify h w.cursor = .behind →
    ∃ o, h.ring.head?.map Record.round = some o ∧ v = behindMoved o w) ∧
  (InReach w → classify h w.cursor = .gap →
    ∃ k, 1 ≤ k ∧ k ≤ distance w.cursor w.last + 1 ∧
      (∀ j < k, classify h (w.cursor + BitVec.ofNat 32 j) = .gap) ∧
      (k ≤ distance w.cursor w.last → classify h (w.cursor + BitVec.ofNat 32 k) ≠ .gap) ∧ v = gapMoved k w) ∧
  ((InReach w → classify h w.cursor ≠ .behind ∧ classify h w.cursor ≠ .gap) → v = w)

/-- R88: each round that the cursor has passed is counted once, as emitted or as lost, and once the window is settled
they make up its length. -/
def Counted (w : Window) : Prop :=
  if live w then
    distance w.first w.cursor = w.emitted + w.lost ∧ w.emitted + w.lost ≤ roundsBetween w.first w.last
  else w.emitted + w.lost = roundsBetween w.first w.last

end Sys2Proof.Machine.Stated

/-- R101 to R107, R109, R110: what a service pass does next: settles the first CLOSING window, or settles the skips of
every window (R103, R104, R109), or serves the ready window with the smallest distance from span start, or ends. A
window is ready when it is head ready or round ready (R105), and R107 gives its group. An offer suspends the pass
(notes/assumptions/5, DESIGN CHOICE), skips are settled once in a pass, before the ready windows are served
(notes/assumptions/11, DEDUCED), and the end of a pass sends an acknowledgement that is due (notes/assumptions/24,
DEDUCED). -/
def Obligations.ServicePassTurns : Prop :=
  (∀ (s : State) (p : Pass), WindowListLaw s → s.engine.pass = some p →
     let first := s.engine.windows.find? fun w => decide (w.state = .closing)
     let ended : State := { s with
       engine := { s.engine with pass := none, ackDue := none }
       paths := { s.paths with engineAcks := s.paths.engineAcks ++ s.engine.ackDue.toList } }
     let offers := fun x : EngineOffer =>
       ({ s with paths := { s.paths with engineOffers := s.paths.engineOffers ++ [x] } } : State)
     (∀ w, first = some w → w.headSent = true → resumePass s = offers (.tail
       { id := w.id, last := w.last, emitted := w.emitted, cells := w.cells, lost := w.lost, flags := w.flags })) ∧
     (∀ w, first = some w → w.headSent = false → resumePass s = resumePass { s with
       engine := { s.engine with windows := s.engine.windows.filter fun x => decide (x ≠ w) }
       counters := { s.counters with windowsDiscarded := raise s.counters.windowsDiscarded 1 } }) ∧
     (first = none → p.stage = .settling → s.engine.balance ≠ 0 → resumePass s = ended) ∧
     (first = none → p.stage = .settling → s.engine.balance = 0 → StreamLaw s →
       ∃ settled : Window → Window, (∀ w, Settled s.store w (settled w)) ∧ resumePass s = resumePass { s with
         engine := { s.engine with
           windows := s.engine.windows.map settled, pass := some { p with stage := .serving } }
         counters := { s.counters with
           windowsTruncated := raise s.counters.windowsTruncated
             (s.engine.windows.countP fun w => live w && atOrAfter w.last w.cursor &&
               decide (classify s.store w.cursor = .behind) && !w.flags.truncated) } }) ∧
     (first = none → p.stage = .serving → (∀ w ∈ s.engine.windows, isReady s w = false) →
       resumePass s = ended) ∧
     (first = none → p.stage = .serving → (∃ w ∈ s.engine.windows, isReady s w = true) →
       ∃ older w younger, s.engine.windows = older ++ w :: younger ∧ isReady s w = true ∧
         (∀ x ∈ older, isReady s x = true →
           ∃ o, s.store.spanStart = some o ∧ distance o w.cursor < distance o x.cursor) ∧
         (∀ x ∈ younger, isReady s x = true →
           ∀ o, s.store.spanStart = some o → distance o w.cursor ≤ distance o x.cursor) ∧
         (roundReady s w = none → resumePass s = offers (.head
           { id := w.id, entry := w.entry, profile := w.profile, trigger := w.trigger, first := w.first,
             last := w.last, mask := w.mask })) ∧
         (∀ x g, roundReady s w = some (x :: g) → resumePass s = offers (.group (x :: g))) ∧
         (roundReady s w = some [] → resumePass s = resumePass { s with
           engine := { s.engine with windows := s.engine.windows.map fun y =>
             if y.id = w.id then emitted 0 y else y } }))) ∧
  (∀ (s : State) (w : Window),
     (isReady s w = true ↔ headReady s w = true ∨ roundReady s w ≠ none) ∧
     (headReady s w = true ↔ live w = true ∧ w.headSent = false ∧ occupancy s.egress < 240) ∧
     (∀ g, roundReady s w = some g ↔ live w = true ∧ w.headSent = true ∧ atOrAfter w.last w.cursor = true ∧
       (∃ f, s.engine.frontier = some f ∧ atOrAfter f w.cursor = true) ∧
       (g = [] ∨ occupancy s.egress + g.length ≤ 240) ∧
       ∃ x, s.store.ring.find? (fun y => y.round == w.cursor) = some x ∧
         g = (List.finRange 16).filterMap fun i =>
           if w.mask.getLsbD i.val then (x.values.get i).map fun v =>
             { id := w.id, round := x.round, channel := i, value := v, complete := x.complete }
           else none))

/-- R106 to R109, R138: the Egress Queue answers the engine's offers: a head below 240, a group whole when it fits
within 240, a tail always. A head or group that is declined leaves its window as it was and ends the pass. That the
pass waits for the answer and goes on with it is notes/assumptions/5 (DESIGN CHOICE), and that its end sends an
acknowledgement that is due is notes/assumptions/24 (DEDUCED). -/
def Obligations.WindowOffersAnswered : Prop :=
  ∀ (s : State) (rest : List EngineOffer),
    let t : State := { s with paths := { s.paths with engineOffers := rest } }
    let declined : State := { t with
      engine := { s.engine with pass := none, ackDue := none }
      paths := { t.paths with engineAcks := s.paths.engineAcks ++ s.engine.ackDue.toList } }
    let admitted := fun (cs : List WindowCell) (id : WindowId) (f : Window → Window) =>
      resumePass { t with
        egress := { s.egress with windows := s.egress.windows ++ cs }
        engine := { s.engine with windows := s.engine.windows.map fun w => if w.id = id then f w else w } }
    (∀ h, s.paths.engineOffers = .head h :: rest →
      (occupancy s.egress < 240 →
        exec .winHeadOffer s = .next (admitted [.head h] h.id fun w => { w with headSent := true })) ∧
      (240 ≤ occupancy s.egress → exec .winHeadOffer s = .next declined)) ∧
    (∀ x g, s.paths.engineOffers = .group (x :: g) :: rest →
      (occupancy s.egress + g.length + 1 ≤ 240 →
        exec .winSampleGroupOffer s = .next (admitted (.sample x :: g.map .sample) x.id fun w => { w with
          emitted := w.emitted + 1, cells := w.cells + (g.length + 1), cursor := w.cursor + 1
          state := if w.state = .draining ∧ isAfter (w.cursor + 1) w.last = true then .closing else w.state })) ∧
      (240 < occupancy s.egress + g.length + 1 → exec .winSampleGroupOffer s = .next declined)) ∧
    (∀ x, s.paths.engineOffers = .tail x :: rest →
      exec .winTailOffer s = .next (admitted [.tail x] x.id fun w => { w with state := .closed }))

/-- R103, R104, R109: in a store that meets the stream law, a window whose cursor round is BEHIND moves its cursor to the
oldest round held or to L + 1, the rounds counted lost and TRUNCATED set; one whose cursor round is GAP skips to the next
round that is no gap, or past L, with GAP set; any other is unchanged. R88, R107: moving a window's cursor loses count of
no round: what a skip passes is counted lost, what is emitted is counted emitted, so emitted, lost and the rounds left
keep their sum. R88, R93, R97, R98, R112, R115: each event of a window keeps its rounds counted once each, so that
rounds emitted plus rounds lost is the window length once it is settled; a shortened window counts only the rounds up to
its new L (notes/assumptions/21, DEDUCED). -/
def Obligations.SkipsCountEveryRound : Prop :=
  (∀ (s : State) (w : Window), StreamLaw s →
    Settled s.store w (settleSkip s.store w) ∧
    (settleSkip s.store w).emitted = w.emitted ∧
    (settleSkip s.store w).lost + remaining (settleSkip s.store w) = w.lost + remaining w ∧
    (∀ k, hasRounds w = true →
      (emitted k w).emitted + remaining (emitted k w) = w.emitted + remaining w ∧ (emitted k w).lost = w.lost) ∧
    (settleSkip s.store w).last = w.last ∧ (settleSkip s.store w).first = w.first ∧
    (Counted w → Counted (settleSkip s.store w))) ∧
  (∀ w : Window, Counted w →
    (∀ k, InReach w → Counted (emitted k w)) ∧ Counted (truncateWindow w) ∧ Counted (abortWindow w) ∧
    (∀ l, w.state = .opened → atOrAfter w.last l = true → distance l w.cursor ≠ 2147483648 →
      w.emitted ≤ roundsBetween w.first l → Counted (shortenWindow l w))) ∧
  (∀ (s : State) (q : OpenRequest) (id : WindowId), Counted (placedWindow s (freshWindow s q id)))

/-- R87, R101, R102, R111: every step keeps at most 6 windows with distinct ids, each unreleased tail with its own
CLOSED window, no queued cell of a window after its tail or before its head, the window of every queued cell in the
list, and no window CLOSING and no acknowledgement due outside a pass. -/
def Obligations.TailLawKept : Prop :=
  ∀ s t : State, TailLaw s → step s = .next t → TailLaw t

/-- R99: every step keeps the reset balance equal to what is still on its way on the two paths, so it is -1 or more
while at most one node reset is in progress (Table 5-3). -/
def Obligations.BalanceLawKept : Prop :=
  (∀ s t : State, BalanceLaw s → step s = .next t → BalanceLaw t) ∧
  (∀ s : State, BalanceLaw s → EpochLaw s → -1 ≤ s.engine.balance)

/-! ## The Output Line Unit -/

namespace Sys2Proof.Machine.Stated

/-- R122, stage 1: a line after the pulse expiry of a step with round `r`. -/
def expired (st : LineState) (r : Round) : LineState :=
  match st with
  | .pulsing e => if atOrAfter r e then .inactive else st
  | _ => st

/-- R123: the outcome of a TOGGLE. -/
def toggled (st : LineState) : LineState := if st = .inactive then .levelled else .inactive

/-- R123, Table 6-3: the actions of a step for one enabled line, combined. -/
def combined (st : LineState) (r : Round) (acts : List LineOp) : LineState :=
  let m := ((acts.filter fun x => decide (x.action = .pulse)).map LineOp.length).foldr max 0
  if ∃ x ∈ acts, x.action = .clear then .inactive
  else if ∃ x ∈ acts, x.action = .set then .levelled
  else if ∃ x ∈ acts, x.action = .pulse then
    match st with
    | .pulsing e => .pulsing (if atOrAfter e (r + BitVec.ofNat 32 m) then e else r + BitVec.ofNat 32 m)
    | _ => .pulsing (r + BitVec.ofNat 32 m)
  else if acts.length % 2 = 1 then toggled st
  else st

/-- R128, R129: a line whose pulse, if it has one, has ended. -/
def pulseEnded (st : LineState) : LineState := if st = .levelled then .levelled else .inactive

end Sys2Proof.Machine.Stated

/-- R122, R123: a line step: pulse expiry, then the combined actions of each enabled line named while not held, then
the last step round. A line that is disabled or not named only undergoes the expiry. -/
def Obligations.LineStepExpiresThenCombines : Prop :=
  ∀ (s : State) (x : LineStep) (rest : List LineItem), s.paths.tableToLines = .step x :: rest →
    ∃ lines : Vector LineState 8,
      exec .lineStep s = .next { s with
        lines := { s.lines with lines := lines, lastStep := some x.round }
        paths := { s.paths with tableToLines := rest } } ∧
      ∀ n : Fin 8,
        let acts := x.actions.filter fun a => decide (a.line = n)
        let st := expired (s.lines.lines.get n) x.round
        ((s.lines.held = true ∨ (s.lines.entries.get n).enable = false ∨ acts = []) → lines.get n = st) ∧
        (s.lines.held = false → (s.lines.entries.get n).enable = true → acts ≠ [] →
          lines.get n = combined st x.round acts)

/-- R124 to R131: the Agent's direct notices at the Output Line Unit: LINE, refused while held, ignored on a disabled line
and applied otherwise, always acknowledged; safe state, session open and CLOSE. Then LOST, RESTART, the mark and the
node-reset notice on the Trigger Table's path, the last two acknowledged. -/
def Obligations.LinesTakeNotices : Prop :=
  (∀ (s : State) (rest : List LineNotice),
     let quiet := Vector.replicate 8 LineState.inactive
     let taken := fun u : LineUnit =>
       ({ s with lines := u, paths := { s.paths with agentToLines := rest } } : State)
     (∀ n a, s.paths.agentToLines = .line n a :: rest →
       let acked := fun (o : LineOutcome) (u : LineUnit) =>
         ({ s with lines := u
                   paths := { s.paths with
                     agentToLines := rest, lineAcks := s.paths.lineAcks ++ [.notice o s.lines.lastStep] } } : State)
       (s.lines.held = true → exec .lineNotice s = .next (acked .refused s.lines)) ∧
       (s.lines.held = false → (s.lines.entries.get n).enable = false →
         exec .lineNotice s = .next (acked .ignored s.lines)) ∧
       (s.lines.held = false → (s.lines.entries.get n).enable = true →
         exec .lineNotice s = .next (acked .applied { s.lines with
           lines := Vector.ofFn fun k => if k ≠ n then s.lines.lines.get k
             else if a = .clear then .inactive else if a = .set then .levelled else toggled (s.lines.lines.get k) }))) ∧
     (s.paths.agentToLines = .safeState :: rest →
       exec .lineSafeState s = .next (taken { s.lines with lines := quiet, held := true })) ∧
     (s.paths.agentToLines = .sessionOpen :: rest →
       exec .lineSessionOpen s = .next (taken { s.lines with held := false })) ∧
     (s.paths.agentToLines = .close :: rest → exec .lineClose s = .next (taken { s.lines with lines := quiet }))) ∧
  (∀ (s : State) (rest : List LineItem),
     let ended := Vector.ofFn fun n : Fin 8 => pulseEnded (s.lines.lines.get n)
     (s.paths.tableToLines = .lost :: rest → exec .lineLostNotice s = .next { s with
       lines := { s.lines with lines := ended }, paths := { s.paths with tableToLines := rest } }) ∧
     (s.paths.tableToLines = .restart :: rest → exec .lineRestartNotice s = .next { s with
       lines := { s.lines with lines := ended, lastStep := none }, paths := { s.paths with tableToLines := rest } }) ∧
     (∀ m, s.paths.tableToLines = .mark m :: rest → exec .lineEpochMark s = .next { s with
       lines := { s.lines with
         entries := s.agent.staging.lines
         lines := Vector.ofFn fun n =>
           if s.lines.entries.get n = s.agent.staging.lines.get n then s.lines.lines.get n else .inactive
         epoch := m }
       paths := { s.paths with tableToLines := rest, lineAcks := s.paths.lineAcks ++ [.mark m] } }) ∧
     (s.paths.tableToLines = .nodeReset :: rest → exec .lineNodeResetNotice s = .next { s with
       lines := { s.lines with lines := Vector.replicate 8 .inactive, lastStep := none }
       paths := { s.paths with tableToLines := rest, lineAcks := s.paths.lineAcks ++ [.nodeReset] } }))

/-- R121 with R120: taking the safe-state notice holds the unit; nothing but the session-open notice (or a power-on
reset) ends the hold; and while the unit is held every pin is at its idle level. Off hold, a pin is at the level
opposite to idle exactly when its line is enabled and ACTIVE. -/
def Obligations.SafeStatePinsStayIdle : Prop :=
  (∀ (s : State) (rest : List LineNotice), s.paths.agentToLines = .safeState :: rest →
    ∃ t, exec .lineSafeState s = .next t ∧ t.lines.held = true) ∧
  (∀ (s : State) (n : Fin 8), s.lines.held = true → pinOf s n = (s.lines.entries.get n).idle) ∧
  (∀ (c : Instr) (s t : State), exec c s = .next t → s.lines.held = true → t.lines.held = false →
    c = .powerOnReset ∨ (c = .lineSessionOpen ∧ ∃ rest, s.paths.agentToLines = .sessionOpen :: rest)) ∧
  (∀ (s : State) (n : Fin 8), s.lines.held = false →
    (pinOf s n ≠ (s.lines.entries.get n).idle ↔
      (s.lines.entries.get n).enable = true ∧ s.lines.lines.get n ≠ .inactive))

/-! ## The Egress Queue -/

namespace Sys2Proof.Machine.Stated

/-- R139: the Egress Queue answers an EVENT offer. -/
def eventAnswered (s : State) (e : EventCell) : State :=
  if s.egress.eventMask.getLsbD (eventCode e.code - 1) = false then s
  else if occupancy s.egress < 250 then { s with egress := { s.egress with events := s.egress.events ++ [e] } }
  else { s with counters := { s.counters with eventsDropped := raise s.counters.eventsDropped 1 } }

/-- R140, R172: the Agent's reply joins the REPLY FIFO and its request's service ends. -/
def replyAdmitted (s : State) (c : ReplyCell) : State :=
  { s with
    egress := { s.egress with replies := s.egress.replies ++ [c], waitingReply := none }
    agent := { s.agent with fifo := s.agent.fifo.tail, phase := .free } }

/-- R142: the start of the transmission of cell `c`, chosen from the queue so that `q` is left. -/
def started (s : State) (c : EgressCell) (q : Egress) : State :=
  let t : State := { s with
    egress := { q with
      sending := some { seq := s.egress.nextSeq, cell := c }
      credits := s.egress.credits - 1, nextSeq := s.egress.nextSeq + 1 }
    counters := { s.counters with cellsTransmitted := raise s.counters.cellsTransmitted 1 }
    paths := { s.paths with
      queueToEngine := s.paths.queueToEngine ++ (match c with
        | .window (.tail x) => [.tailTransmitted x.id, .room]
        | _ => [.room]) } }
  match s.egress.waitingReply with
  | some r => if occupancy q < 250 then replyAdmitted t r else t
  | none => t

end Sys2Proof.Machine.Stated

/-- R135 to R137, R139, R140: the Egress Queue answers LIVE, RELAY, EVENT and REPLY offers, each against its own limit.
A REPLY is not taken while another waits, nor before settings that the Agent has given (notes/assumptions/6, DEDUCED). -/
def Obligations.OffersAnsweredByLimit : Prop :=
  ∀ s : State,
    (∀ c rest, s.paths.asmOffers = .live c :: rest →
      let t : State := { s with paths := { s.paths with asmOffers := rest } }
      exec .liveOffer s = .next (if occupancy s.egress < s.egress.liveLimit
        then { t with egress := { s.egress with lives := s.egress.lives ++ [c] } }
        else { t with counters := { s.counters with liveDropped := raise s.counters.liveDropped 1 } })) ∧
    (∀ c rest, s.paths.asmOffers = .relay c :: rest →
      let t : State := { s with paths := { s.paths with asmOffers := rest } }
      exec .relayOffer s = .next (if occupancy s.egress < 240
        then { t with egress := { s.egress with relays := s.egress.relays ++ [c] } }
        else { t with counters := { s.counters with relayDropped := raise s.counters.relayDropped 1 } })) ∧
    (∀ e rest, s.paths.asmOffers = .event e :: rest → exec (.eventOffer .assembler) s =
      .next (eventAnswered { s with paths := { s.paths with asmOffers := rest } } e)) ∧
    (∀ e rest, s.paths.tableOffers = e :: rest → exec (.eventOffer .triggerTable) s =
      .next (eventAnswered { s with paths := { s.paths with tableOffers := rest } } e)) ∧
    (∀ e rest, s.paths.engineOffers = .event e :: rest → exec (.eventOffer .windowEngine) s =
      .next (eventAnswered { s with paths := { s.paths with engineOffers := rest } } e)) ∧
    (∀ e rest, s.paths.agentOffers = .event e :: rest → exec (.eventOffer .agent) s =
      .next (eventAnswered { s with paths := { s.paths with agentOffers := rest } } e)) ∧
    (s.egress.waitingReply ≠ none ∨ s.paths.settings ≠ [] → exec .replyOffer s = .next s) ∧
    (∀ c rest, s.egress.waitingReply = none → s.paths.settings = [] → s.paths.agentOffers = .reply c :: rest →
      let t : State := { s with paths := { s.paths with agentOffers := rest } }
      exec .replyOffer s = .next (if occupancy s.egress < 250 then replyAdmitted t c
        else { t with egress := { s.egress with waitingReply := some c } }))

/-- R141, R142, R144: a transmission starts with the transmitter idle, a credit and a cell, from the highest class that
holds one, its oldest cell; without them nothing starts. A completion leaves the transmitter idle. That a start is a
command of its own is the model's choice (notes/assumptions/7). -/
def Obligations.TransmissionTakesHighestClass : Prop :=
  ∀ s : State,
    let q := s.egress
    (q.sending = none → 0 < q.credits →
      (∀ c cs, q.replies = c :: cs →
        exec .transmissionStart s = .next (started s (.reply c) { q with replies := cs })) ∧
      (∀ c cs, q.replies = [] → q.events = c :: cs →
        exec .transmissionStart s = .next (started s (.event c) { q with events := cs })) ∧
      (∀ c cs, q.replies = [] → q.events = [] → q.windows = c :: cs →
        exec .transmissionStart s = .next (started s (.window c) { q with windows := cs })) ∧
      (∀ c cs, q.replies = [] → q.events = [] → q.windows = [] → q.relays = c :: cs →
        exec .transmissionStart s = .next (started s (.relay c) { q with relays := cs })) ∧
      (∀ c cs, q.replies = [] → q.events = [] → q.windows = [] → q.relays = [] → q.lives = c :: cs →
        exec .transmissionStart s = .next (started s (.live c) { q with lives := cs }))) ∧
    (q.sending ≠ none ∨ q.credits = 0 ∨ occupancy q = 0 → exec .transmissionStart s = .next s) ∧
    (s.clock.refclk = true → exec .transmissionCompletion s = .next { s with egress := { q with sending := none } })

/-- R146, R148: a grant is added up to 1,023, an excess being reported by an event of the queue's own; the settings of
a completed commit are adopted together, whatever offers wait. -/
def Obligations.CreditsAndSettingsTaken : Prop :=
  ∀ s : State,
    (∀ n rest, s.paths.credits = n :: rest →
      let t := fun k : Nat => ({ s with
        egress := { s.egress with credits := k }, paths := { s.paths with credits := rest } } : State)
      (s.egress.credits + n ≤ 1023 → exec .creditNotice s = .next (t (s.egress.credits + n))) ∧
      (1023 < s.egress.credits + n → exec .creditNotice s = .next (eventAnswered (t 1023)
        { code := .creditOverflow, round := none, a := BitVec.ofNat 32 (s.egress.credits + n - 1023),
          b := BitVec.ofNat 32 n, forced := false }))) ∧
    (∀ x rest, s.paths.settings = x :: rest → exec .settingsAdoption s = .next { s with
      egress := { s.egress with liveLimit := x.liveLimit, eventMask := x.eventMask }
      paths := { s.paths with settings := rest } })

/-- R134, R145, R151, R172: every step keeps the queue law: at most 250 cells other than tails, at most 1,023 credits,
at most 8 requests, the live limit from 16 to 240. -/
def Obligations.QueueLawKept : Prop :=
  ∀ s t : State, QueueLaw s → step s = .next t → QueueLaw t

/-- R134: the queue holds at most 256 cells, of which at most 6 are tails, and a LIVE, RELAY, WIN_HEAD or WIN_SAMPLE
cell is never admitted when it would raise the occupancy above 240 (for LIVE, above the live limit), nor an EVENT or
REPLY when it would raise it above 250, in states that meet the tail law and the queue law. -/
def Obligations.EgressQueueKeepsItsLimits : Prop :=
  ∀ s : State, TailLaw s → QueueLaw s →
    occupancy s.egress ≤ 256 ∧ (tailIds s.egress.windows).length ≤ 6 ∧
    ∀ (c : Instr) (t : State), exec c s = .next t →
      (s.egress.lives.length < t.egress.lives.length →
        occupancy t.egress ≤ s.egress.liveLimit ∧ occupancy t.egress ≤ 240) ∧
      (s.egress.relays.length < t.egress.relays.length → occupancy t.egress ≤ 240) ∧
      ((s.egress.windows.filter isDataCell).length < (t.egress.windows.filter isDataCell).length →
        occupancy t.egress ≤ 240) ∧
      (s.egress.events.length < t.egress.events.length → occupancy t.egress ≤ 250) ∧
      (s.egress.replies.length < t.egress.replies.length → occupancy t.egress ≤ 250)

/-- R143: the first cell after a power-on reset carries number 0, each transmission carries the next number, and no
command but its start or a power-on reset changes the next number; a cell in transmission keeps its number until it
completes. R145: the counter stays within 0 to 1,023 (with the queue law), starts at 0, rises only by a CREDIT notice,
and falls only at a transmission start, which needs it above 0 and lowers it by exactly one. -/
def Obligations.SequenceAndCreditLaws : Prop :=
  ((∀ s t : State, exec .powerOnReset s = .next t → t.egress.nextSeq = 0 ∧ t.egress.sending = none) ∧
   ∀ (c : Instr) (s t : State), exec c s = .next t → c ≠ .powerOnReset →
     (t.egress.nextSeq = s.egress.nextSeq ∧ (t.egress.sending = s.egress.sending ∨ t.egress.sending = none)) ∨
     (c = .transmissionStart ∧ s.egress.sending = none ∧ t.egress.nextSeq = s.egress.nextSeq + 1 ∧
       ∃ x, t.egress.sending = some { seq := s.egress.nextSeq, cell := x })) ∧
  ((∀ s t : State, exec .powerOnReset s = .next t → t.egress.credits = 0) ∧
   ∀ (c : Instr) (s t : State), exec c s = .next t → QueueLaw s → c ≠ .powerOnReset →
     t.egress.credits ≤ 1023 ∧
     (s.egress.credits < t.egress.credits → c = .creditNotice) ∧
     (t.egress.credits < s.egress.credits → c = .transmissionStart ∧ t.egress.credits + 1 = s.egress.credits) ∧
     (s.egress.sending = none → t.egress.sending ≠ none →
       c = .transmissionStart ∧ 0 < s.egress.credits ∧ t.egress.credits + 1 = s.egress.credits))

/-! ## The Management Agent -/

namespace Sys2Proof.Machine.Stated

/-- R170, R172: `q` is the head request and its service may begin. -/
def AtService (s : State) (q : Request) : Prop :=
  s.agent.phase = .free ∧ s.agent.nodeResetting = false ∧ s.agent.committing = false ∧ s.agent.fifo.head? = some q

/-- R173: the service of the NODE request `q`, of kind `k`, may begin. -/
def Serving (s : State) (q : Request) (k : Kind) : Prop :=
  AtService s q ∧ q.dest = 0x00#8 ∧ kindOf q.kind = some k

/-- R174: the reply to `q` has been offered. -/
def replied (s : State) (q : Request) (result : Result) (value aux : Word32) : State :=
  { s with
    agent := { s.agent with phase := .awaitingRoom }
    paths := { s.paths with agentOffers := s.paths.agentOffers ++ [.reply
      { tag := q.tag, kind := q.kind, result := result, value := value, aux := aux }] } }

/-- R192: a round in a reply, 0xFFFFFFFF for none. -/
def roundWord (r : Option Round) : Word32 :=
  match r with
  | some x => x
  | none => 0xFFFFFFFF#32

/-- R170: a request joins the FIFO below 8 requests, or is dropped and counted. -/
def enqueued (s : State) (q : Request) : State :=
  if s.agent.fifo.length < 8 then { s with agent := { s.agent with fifo := s.agent.fifo ++ [q] } }
  else { s with counters := { s.counters with requestsDropped := raise s.counters.requestsDropped 1 } }

/-- R179: the lease remaining in whole milliseconds. -/
def leaseLeft (s : State) : Nat :=
  match s.agent.leaseExpiry with
  | none => 0
  | some e => (e - s.clock.localTimer) / 1000

/-- R164, R165: the commit completes. -/
def commitDone (s : State) (q : Request) (mark : Option Round) : State :=
  let t : State := { s with
    agent := { s.agent with active := s.agent.staging, writeCount := 0, committing := false }
    paths := { s.paths with settings := s.paths.settings ++
      [{ liveLimit := s.agent.staging.settings.liveLimit, eventMask := s.agent.staging.settings.eventMask }] } }
  replied t q .ok (s.agent.epoch.setWidth 32) (roundWord mark)

end Sys2Proof.Machine.Stated

/-- R146, R170, R171: a REQUEST on arrival, after the time before it: malformed, a CREDIT, a RENEW that restarts a
running lease, or any other. -/
def Obligations.RequestClassifiedOnArrival : Prop :=
  ∀ (s : State) (dt : Nat) (q : Request), s.clock.refclk = true →
    let t := elapse s dt
    let malformed : State := { t with
      counters := { s.counters with malformedRequests := raise s.counters.malformedRequests 1 } }
    (q.dest ≠ 0x00#8 → q.dest ≠ 0x01#8 → exec (.requestArrival dt q) s = .next malformed) ∧
    (q.dest = 0x00#8 → q.kind = 0x0E#8 → 1 ≤ q.value.toNat → q.value.toNat ≤ 1023 →
      exec (.requestArrival dt q) s = .next { t with
        paths := { s.paths with credits := s.paths.credits ++ [q.value.toNat] } }) ∧
    (q.dest = 0x00#8 → q.kind = 0x0E#8 → (q.value.toNat = 0 ∨ 1023 < q.value.toNat) →
      exec (.requestArrival dt q) s = .next malformed) ∧
    (q.dest = 0x00#8 → q.kind = 0x03#8 → s.agent.session = .opened → 0 < s.agent.leasePeriod →
      exec (.requestArrival dt q) s = .next (enqueued { t with agent := { s.agent with
        leaseExpiry := some (t.clock.localTimer + s.agent.leasePeriod * 1000) } } q)) ∧
    (q.dest = 0x00#8 → q.kind = 0x03#8 → (s.agent.session ≠ .opened ∨ s.agent.leasePeriod = 0) →
      exec (.requestArrival dt q) s = .next (enqueued t q)) ∧
    (q.dest = 0x00#8 → q.kind ≠ 0x03#8 → q.kind ≠ 0x0E#8 → exec (.requestArrival dt q) s = .next (enqueued t q)) ∧
    (q.dest = 0x01#8 → exec (.requestArrival dt q) s = .next (enqueued t q))

/-- R173, R174, R176: a NODE request of an unknown kind is answered BADKIND; a kind that needs the session, and a
FRONT request, is answered NOSESSION in CLOSED and EXPIRED in EXPIRED, with none of its effect. -/
def Obligations.SessionNeededIsChecked : Prop :=
  ∀ (s : State) (q : Request),
    (AtService s q → q.dest = 0x00#8 → kindOf q.kind = none →
      exec .unknownKindService s = .next (replied s q .badKind 0 0)) ∧
    (∀ result : Result, (s.agent.session = .closed ∧ result = .noSession) ∨
        (s.agent.session = .expired ∧ result = .expired) →
      (∀ ck : Instr × Kind, ck ∈ [(.closeSession, .closeSession), (.renew, .renew), (.write, .write),
          (.revert, .revert), (.commit, .commit), (.arm, .arm), (.disarm, .disarm), (.fireRequest, .fire),
          (.line, .line), (.clearCounters, .clearCounters), (.nodeReset, .nodeReset)] →
        Serving s q ck.2 → exec ck.1 s = .next (replied s q result 0 0)) ∧
      (AtService s q → q.dest = 0x01#8 → exec .frontRelay s = .next (replied s q result 0 0)))

/-- R177 to R180: OPEN, CLOSE and RENEW at service, and the expiry of the lease. Which expiry is due is the model's
choice (notes/assumptions/3). -/
def Obligations.SessionOpensClosesExpires : Prop :=
  ∀ (s : State) (q : Request),
    (Serving s q .openSession →
      (s.agent.session = .opened → exec .openSession s = .next (replied s q .inSession 0 0)) ∧
      (s.agent.session ≠ .opened → 60000 < q.value.toNat → exec .openSession s = .next (replied s q .badArg 0 0)) ∧
      (s.agent.session ≠ .opened → q.value.toNat ≤ 60000 →
        let t : State := { s with agent := { s.agent with
          session := .opened, leasePeriod := q.value.toNat
          leaseExpiry := if q.value.toNat = 0 then none
            else some (s.clock.localTimer + q.value.toNat * 1000) } }
        exec .openSession s = .next (replied (if s.agent.session = .expired then { t with
          paths := { s.paths with
            agentToTable := s.paths.agentToTable ++ [.sessionOpen]
            agentToLines := s.paths.agentToLines ++ [.sessionOpen]
            agentToEngine := s.paths.agentToEngine ++ [.sessionOpen] } } else t)
          q .ok q.value (s.agent.epoch.setWidth 32)))) ∧
    (Serving s q .closeSession → s.agent.session = .opened →
      exec .closeSession s = .next (replied { s with
        agent := { s.agent with session := .closed, leasePeriod := 0, leaseExpiry := none }
        paths := { s.paths with
          agentToTable := s.paths.agentToTable ++ [.close]
          agentToLines := s.paths.agentToLines ++ [.close] } } q .ok 0 0)) ∧
    (Serving s q .renew → s.agent.session = .opened → exec .renew s =
      .next (replied s q .ok (BitVec.ofNat 32 s.agent.leasePeriod) (BitVec.ofNat 32 (leaseLeft s)))) ∧
    (∀ e, s.agent.leaseExpiry = some e → s.clock.refclk = true →
      (e ≤ s.clock.localTimer ∨ ∀ x ∈ runningExpiries s, e ≤ x) →
      exec .leaseExpiry s = .next { s with
        clock := { s.clock with localTimer := max s.clock.localTimer e }
        agent := { s.agent with session := .expired, leaseExpiry := none }
        paths := { s.paths with
          agentToTable := s.paths.agentToTable ++ [.safeState]
          agentToLines := s.paths.agentToLines ++ [.safeState]
          agentToEngine := s.paths.agentToEngine ++ [.safeState]
          agentOffers := s.paths.agentOffers ++ [.event
            { code := .leaseExpired, round := none, a := BitVec.ofNat 32 s.agent.leasePeriod, b := 0,
              forced := false }] } }) ∧
    (s.agent.leaseExpiry = none → exec .leaseExpiry s = .next s)

/-- R181: the lease timer is started by OPEN, restarted by RENEW arrivals alone, and stopped by CLOSE, by expiry and
by a power-on reset: no other command changes it, a node reset among them. -/
def Obligations.LeaseTimerChangesOnlyAsRuled : Prop :=
  ∀ (c : Instr) (s t : State), exec c s = .next t → t.agent.leaseExpiry ≠ s.agent.leaseExpiry →
    (c = .openSession ∧ s.agent.session ≠ .opened) ∨
    (∃ dt q, c = .requestArrival dt q ∧ q.dest = 0x00#8 ∧ q.kind = 0x03#8 ∧ s.agent.session = .opened ∧
      t.agent.leaseExpiry ≠ none) ∨
    ((c = .closeSession ∨ c = .leaseExpiry ∨ c = .powerOnReset) ∧ t.agent.leaseExpiry = none)

/-- R156, R157, R158: WRITE in an OPEN session changes one field of STAGING and raises the write count, or is answered
BADARG and changes neither; REVERT copies ACTIVE into STAGING and clears the write count. -/
def Obligations.WriteAndRevertEditStaging : Prop :=
  ∀ (s : State) (q : Request), s.agent.session = .opened →
    (Serving s q .write → ∀ b,
      writeBank s.agent.staging q.table.toNat q.index.toNat q.field.toNat q.value = some b →
      exec .write s = .next (replied { s with agent := { s.agent with
        staging := b, writeCount := min (s.agent.writeCount + 1) 65535 } } q .ok
        (BitVec.ofNat 32 (min (s.agent.writeCount + 1) 65535)) 0)) ∧
    (Serving s q .write → writeBank s.agent.staging q.table.toNat q.index.toNat q.field.toNat q.value = none →
      exec .write s = .next (replied s q .badArg 0 0)) ∧
    (Serving s q .revert → exec .revert s = .next (replied { s with agent := { s.agent with
      staging := s.agent.active, writeCount := 0 } } q .ok (s.agent.epoch.setWidth 32) 0))

namespace Sys2Proof.Machine.Stated

/-- Table 8-1: the entries of a table; none for a table number above 4. -/
def entriesOf (table : Nat) : Nat :=
  match table with
  | 0 => 16
  | 1 => 8
  | 2 => 4
  | 3 => 8
  | 4 => 1
  | _ => 0

/-- Table 8-1: the fields of a table. -/
def fieldsOf (table : Nat) : Nat :=
  match table with
  | 0 => 6
  | 1 => 16
  | 2 => 5
  | 3 => 2
  | 4 => 3
  | _ => 0

/-- Table 8-2 with R152: value `v` is in the range of a field; false of a field that no table has. -/
def InRange (table field : Nat) (v : Word32) : Prop :=
  let n := v.toNat
  match table, field with
  | 0, 0 => n ≤ 2
  | 0, 1 => n ≤ 6
  | 0, 2 => -8388608 ≤ v.toInt ∧ v.toInt ≤ 8388607
  | 0, 3 => -8388608 ≤ v.toInt ∧ v.toInt ≤ 8388607
  | 0, 4 => n ≤ 65535
  | 0, 5 => 1 ≤ n ∧ n ≤ 255
  | 1, 0 => n ≤ 4
  | 1, 1 => n ≤ 65535
  | 1, 2 => n ≤ 7
  | 1, 3 => 1 ≤ n ∧ n ≤ 65535
  | 1, 4 => True
  | 1, 5 => True
  | 1, 6 => n ≤ 2147483647
  | 1, 7 => n ≤ 1
  | 1, 8 => n ≤ 65535
  | 1, 9 => n ≤ 1
  | 1, 10 => n ≤ 3 ∨ n = 255
  | 1, 11 => n ≤ 7 ∨ n = 255
  | 1, 12 => n ≤ 3
  | 1, 13 => 1 ≤ n ∧ n ≤ 65535
  | 1, 14 => n ≤ 1
  | 1, 15 => n ≤ 255
  | 2, 0 => n ≤ 255
  | 2, 1 => 1 ≤ n ∧ n ≤ 4095
  | 2, 2 => n ≤ 65535
  | 2, 3 => n ≤ 2
  | 2, 4 => 1 ≤ n ∧ n ≤ 16383
  | 3, 0 => n ≤ 1
  | 3, 1 => n ≤ 1
  | 4, 0 => 1 ≤ n ∧ n ≤ 255
  | 4, 1 => 16 ≤ n ∧ n ≤ 240
  | 4, 2 => n ≤ 511
  | _, _ => False

/-- Yes and no, set and clear, as a number. -/
def bit (b : Bool) : Nat := if b then 1 else 0

/-- Table 8-2: the fields of a CHANNEL entry in field order, each as READ gives it. -/
def channelFields (e : ChannelEntry) : List Word32 :=
  [match e.mode with
   | .off => 0
   | .pass => 1
   | .gate => 2,
   match e.condition with
   | .never => 0
   | .above => 1
   | .below => 2
   | .outside => 3
   | .inside => 4
   | .riseStep => 5
   | .fallStep => 6,
   e.levelA.signExtend 32, e.levelB.signExtend 32, BitVec.ofNat 32 e.hysteresis, BitVec.ofNat 32 e.qualify]

/-- Table 8-2: the fields of a TRIGGER entry. -/
def triggerFields (e : TriggerEntry) : List Word32 :=
  [match e.combine with
   | .any => 0
   | .all => 1
   | .after => 2
   | .width => 3
   | .schedule => 4,
   e.sources.setWidth 32, BitVec.ofNat 32 e.refEntry.val, BitVec.ofNat 32 e.within,
   BitVec.ofNat 32 (e.widthMin * 65536 + e.widthMax), e.compare, BitVec.ofNat 32 e.interval,
   match e.policy with
   | .single => 0
   | .repeating => 1,
   BitVec.ofNat 32 e.holdoff, BitVec.ofNat 32 (bit e.armAtCommit),
   match e.profile with
   | none => 255
   | some k => BitVec.ofNat 32 k.val,
   match e.line with
   | none => 255
   | some n => BitVec.ofNat 32 n.val,
   match e.lineAction with
   | .set => 0
   | .clear => 1
   | .toggle => 2
   | .pulse => 3,
   BitVec.ofNat 32 e.pulseLength, BitVec.ofNat 32 (bit e.event), e.chainMask.setWidth 32]

/-- Table 8-2: the fields of a PROFILE entry. -/
def profileFields (e : Profile) : List Word32 :=
  [BitVec.ofNat 32 e.pre, BitVec.ofNat 32 e.post, e.mask.setWidth 32,
   match e.overlap with
   | .separate => 0
   | .extend => 1
   | .ignore => 2,
   BitVec.ofNat 32 e.limit]

/-- Tables 8-2 and 10-7: LOW 0, HIGH 1. -/
def levelWord (x : Level) : Word32 :=
  match x with
  | .low => 0
  | .high => 1

/-- Table 8-2: the fields of a LINE entry. -/
def lineFields (e : LineEntry) : List Word32 := [BitVec.ofNat 32 (bit e.enable), levelWord e.idle]

/-- Table 8-2: the fields of the SETTINGS entry. -/
def settingsFields (e : Settings) : List Word32 :=
  [BitVec.ofNat 32 e.silenceTimeout, BitVec.ofNat 32 e.liveLimit, e.eventMask.setWidth 32]

end Sys2Proof.Machine.Stated

/-- R151, R152, R156, R167: a WRITE is accepted exactly when its table and index are in Table 8-1 and its value is in the
range of its field (Table 8-2); the field then reads back as the value written, and every other field of the bank reads
as before. A READ accepts the tables, indexes and fields of Table 8-1, and gives each field in the encoding of
Table 8-2. -/
def Obligations.WrittenFieldReadsBack : Prop :=
  (∀ (b : Bank) (table index field : Nat) (v : Word32),
     ((writeBank b table index field v).isSome = true ↔ index < entriesOf table ∧ InRange table field v) ∧
     ∀ c, writeBank b table index field v = some c →
       readBank c table index field = some v ∧
       ∀ t i f, (t, i, f) ≠ (table, index, field) → readBank c t i f = readBank b t i f) ∧
  (∀ (b : Bank) (t i f : Nat), (readBank b t i f).isSome = true ↔ i < entriesOf t ∧ f < fieldsOf t) ∧
  (∀ (b : Bank) (f : Nat),
     (∀ i : Fin 16, readBank b 0 i.val f = (channelFields (b.channels.get i))[f]?) ∧
     (∀ i : Fin 8, readBank b 1 i.val f = (triggerFields (b.triggers.get i))[f]?) ∧
     (∀ i : Fin 4, readBank b 2 i.val f = (profileFields (b.profiles.get i))[f]?) ∧
     (∀ i : Fin 8, readBank b 3 i.val f = (lineFields (b.lines.get i))[f]?) ∧
     readBank b 4 0 f = (settingsFields b.settings)[f]?)

namespace Sys2Proof.Machine.Stated

/-- A check of Table 8-6 that fails, as check number, table and index. -/
def failed (check table index : Nat) (holds : Bool) : List (Nat × Nat × Nat) :=
  if holds then [] else [(check, table, index)]

/-- R160, Table 8-6: every check that fails, in the order in which the Agent makes them: CHANNEL, TRIGGER, PROFILE, in
each the entries in ascending index, and in an entry the checks in ascending number. -/
def failing (b : Bank) : List (Nat × Nat × Nat) :=
  ((List.finRange 16).flatMap fun i =>
    let e := b.channels.get i
    failed 1 0 i.val (decide (e.condition ∈ [.outside, .inside] → e.levelA.toInt ≤ e.levelB.toInt)) ++
    failed 2 0 i.val (decide (e.condition = .outside → 2 * (e.hysteresis : Int) ≤ e.levelB.toInt - e.levelA.toInt)) ++
    failed 3 0 i.val (decide (e.condition ∈ [.riseStep, .fallStep] → 0 ≤ e.levelA.toInt))) ++
  ((List.finRange 8).flatMap fun i =>
    let e := b.triggers.get i
    failed 4 1 i.val (decide (e.combine = .after → e.refEntry ≠ i)) ++
    failed 5 1 i.val (decide (e.combine = .width → e.widthMin ≤ e.widthMax))) ++
  (List.finRange 4).flatMap fun i =>
    let e := b.profiles.get i
    failed 6 2 i.val (decide (e.pre + e.post + 1 ≤ e.limit))

end Sys2Proof.Machine.Stated

/-- R159, R160, R161: COMMIT in an OPEN session: BADARG, COUNT or BADCFG, or the start of the commit. BADCFG names the
first failing check in the order of R160, with its table and index; STAGING passes exactly when every entry meets the
six cross-field checks of Table 8-6. -/
def Obligations.CommitChecksThenStarts : Prop :=
  (∀ (s : State) (q : Request), s.agent.session = .opened → Serving s q .commit →
     (65535 < q.value.toNat → exec .commit s = .next (replied s q .badArg 0 0)) ∧
     (q.value.toNat ≤ 65535 → q.value.toNat ≠ s.agent.writeCount →
       exec .commit s = .next (replied s q .count (BitVec.ofNat 32 s.agent.writeCount) 0)) ∧
     (∀ k table index, q.value.toNat ≤ 65535 → q.value.toNat = s.agent.writeCount →
       firstFault s.agent.staging = some (k, table, index) →
       exec .commit s = .next (replied s q .badCfg (BitVec.ofNat 32 k) (BitVec.ofNat 32 (table * 256 + index)))) ∧
     (q.value.toNat ≤ 65535 → q.value.toNat = s.agent.writeCount → firstFault s.agent.staging = none →
       exec .commit s = .next { s with
         agent := { s.agent with
           epoch := s.agent.epoch + 1, committing := true, markRound := .absent, engineAcked := false,
           linesAcked := false, phase := .awaitingAck }
         paths := { s.paths with agentToAsm := s.paths.agentToAsm ++ [.commit (s.agent.epoch + 1)] } })) ∧
  (∀ b : Bank, firstFault b = (failing b).head?) ∧
  (∀ b : Bank, firstFault b = none ↔
     (∀ i : Fin 16,
       let e := b.channels.get i
       ((e.condition = .outside ∨ e.condition = .inside) → e.levelA.toInt ≤ e.levelB.toInt) ∧
       (e.condition = .outside → 2 * (e.hysteresis : Int) ≤ e.levelB.toInt - e.levelA.toInt) ∧
       ((e.condition = .riseStep ∨ e.condition = .fallStep) → 0 ≤ e.levelA.toInt)) ∧
     (∀ i : Fin 8,
       let e := b.triggers.get i
       (e.combine = .after → e.refEntry ≠ i) ∧ (e.combine = .width → e.widthMin ≤ e.widthMax)) ∧
     ∀ i : Fin 4, (b.profiles.get i).pre + (b.profiles.get i).post + 1 ≤ (b.profiles.get i).limit)

/-- R162, R164, R165: the report of the mark round and the two acknowledgements are noted; with the last of the three
the commit completes: STAGING into ACTIVE, the settings to the queue, the write count 0, the reply. -/
def Obligations.CommitCompletesWithLastReport : Prop :=
  ∀ (s : State) (q : Request), s.agent.committing = true → s.agent.fifo.head? = some q →
    (∀ r rest, s.paths.asmReports = r :: rest →
      let t : State := { s with
        paths := { s.paths with asmReports := rest }
        agent := { s.agent with markRound := match r with
          | some x => .round x
          | none => .noRound } }
      exec .markRoundReport s = .next
        (if s.agent.engineAcked = true ∧ s.agent.linesAcked = true then commitDone t q r else t)) ∧
    (∀ n rest, s.paths.engineAcks = .mark n :: rest →
      let t : State := { s with
        paths := { s.paths with engineAcks := rest }, agent := { s.agent with engineAcked := true } }
      (∀ x, s.agent.linesAcked = true → s.agent.markRound = .round x →
        exec (.markAck .windowEngine) s = .next (commitDone t q (some x))) ∧
      (s.agent.linesAcked = true → s.agent.markRound = .noRound →
        exec (.markAck .windowEngine) s = .next (commitDone t q none)) ∧
      (s.agent.linesAcked = false ∨ s.agent.markRound = .absent →
        exec (.markAck .windowEngine) s = .next t)) ∧
    (∀ n rest, s.paths.lineAcks = .mark n :: rest →
      let t : State := { s with
        paths := { s.paths with lineAcks := rest }, agent := { s.agent with linesAcked := true } }
      (∀ x, s.agent.engineAcked = true → s.agent.markRound = .round x →
        exec (.markAck .outputLines) s = .next (commitDone t q (some x))) ∧
      (s.agent.engineAcked = true → s.agent.markRound = .noRound →
        exec (.markAck .outputLines) s = .next (commitDone t q none)) ∧
      (s.agent.engineAcked = false ∨ s.agent.markRound = .absent →
        exec (.markAck .outputLines) s = .next t))

/-- R175: ARM, DISARM, FIRE and LINE at service in an OPEN session, their arguments checked and the phase DISPATCHING;
the dispatch of the head request's direct notice; and the reply to its acknowledgement: EXPIRED when it was refused,
OK otherwise. -/
def Obligations.DirectRequestsServed : Prop :=
  (∀ (s : State) (q : Request), s.agent.session = .opened →
     let ok : State := { s with agent := { s.agent with phase := .dispatching } }
     let bad := replied s q .badArg 0 0
     (Serving s q .arm → exec .arm s = .next (if q.value.toNat ≤ 255 then ok else bad)) ∧
     (Serving s q .disarm → exec .disarm s = .next (if q.value.toNat ≤ 255 then ok else bad)) ∧
     (Serving s q .fire → exec .fireRequest s = .next (if q.index.toNat ≤ 7 then ok else bad)) ∧
     (Serving s q .line → exec .line s =
       .next (if q.index.toNat ≤ 7 ∧ q.value.toNat ≤ 2 then ok else bad))) ∧
  (∀ (s : State) (q : Request), s.agent.fifo.head? = some q → q.dest = 0x00#8 →
     (s.agent.phase = .dispatching →
       let a : Agent := { s.agent with phase := .awaitingAck }
       let sent := fun x : TriggerNotice =>
         ({ s with agent := a, paths := { s.paths with agentToTable := s.paths.agentToTable ++ [x] } } : State)
       (q.kind = 0x08#8 → q.value.toNat ≤ 255 →
         exec .dispatch s = .next (sent (.arm (q.value.extractLsb' 0 8)))) ∧
       (q.kind = 0x09#8 → q.value.toNat ≤ 255 →
         exec .dispatch s = .next (sent (.disarm (q.value.extractLsb' 0 8)))) ∧
       (∀ i : Fin 8, q.kind = 0x0A#8 → q.index.toNat = i.val → exec .dispatch s = .next (sent (.fire i))) ∧
       (∀ (n : Fin 8) (k : LineCommand), q.kind = 0x0B#8 → q.index.toNat = n.val →
         q.value.toNat = (match k with | .set => 0 | .clear => 1 | .toggle => 2) →
         exec .dispatch s = .next { s with
           agent := a, paths := { s.paths with agentToLines := s.paths.agentToLines ++ [.line n k] } })) ∧
     (s.agent.phase = .awaitingAck →
       (∀ refused r rest, s.paths.tableAcks = { refused := refused, round := r } :: rest →
         (((q.kind = 0x08#8 ∨ q.kind = 0x09#8) ∧ q.value.toNat ≤ 255) ∨ (q.kind = 0x0A#8 ∧ q.index.toNat ≤ 7)) →
         exec .noticeAck s = .next (replied { s with paths := { s.paths with tableAcks := rest } } q
           (if refused then .expired else .ok) 0 (roundWord r))) ∧
       (∀ o r rest, s.paths.lineAcks = .notice o r :: rest →
         q.kind = 0x0B#8 → q.index.toNat ≤ 7 → q.value.toNat ≤ 2 →
         let t : State := { s with paths := { s.paths with lineAcks := rest } }
         exec .noticeAck s = .next (match o with
           | .refused => replied t q .expired 0 (roundWord r)
           | .applied => replied t q .ok (roundWord r) 0
           | .ignored => replied t q .ok (roundWord r) 1))))

/-- R182, R183: CLEAR_COUNTERS and NODE_RESET at service in an OPEN session, and the two acknowledgements of a node
reset, in either order; the second ends it with the reply. -/
def Obligations.CountersClearedNodeReset : Prop :=
  ∀ (s : State) (q : Request),
    (Serving s q .clearCounters → s.agent.session = .opened →
      ∃ c : Counters, (∀ i < 21, counterAt c i = some 0) ∧
        exec .clearCounters s = .next (replied { s with counters := c } q .ok 0 0)) ∧
    (Serving s q .nodeReset → s.agent.session = .opened → exec .nodeReset s = .next { s with
      agent := { s.agent with
        nodeResetting := true, engineAcked := false, linesAcked := false, phase := .awaitingAck }
      paths := { s.paths with agentToAsm := s.paths.agentToAsm ++ [.nodeReset] } }) ∧
    (s.agent.nodeResetting = true → s.agent.fifo.head? = some q →
      (∀ rest, s.paths.engineAcks = .nodeReset :: rest →
        let t : State := { s with paths := { s.paths with engineAcks := rest }
                                  agent := { s.agent with engineAcked := true } }
        exec (.nodeResetAck .windowEngine) s = .next (if s.agent.linesAcked then
          replied { t with agent := { t.agent with nodeResetting := false } } q .ok (s.agent.epoch.setWidth 32) 0
          else t)) ∧
      (∀ rest, s.paths.lineAcks = .nodeReset :: rest →
        let t : State := { s with paths := { s.paths with lineAcks := rest }
                                  agent := { s.agent with linesAcked := true } }
        exec (.nodeResetAck .outputLines) s = .next (if s.agent.engineAcked then
          replied { t with agent := { t.agent with nodeResetting := false } } q .ok (s.agent.epoch.setWidth 32) 0
          else t)))

/-- R172, R176: a FRONT request in an OPEN session starts on Front Out and leaves the FIFO without a reply, or waits
in DISPATCHING while Front Out is sending; a completion frees Front Out and starts the one that waits. -/
def Obligations.FrontRequestsRelayed : Prop :=
  ∀ (s : State) (q : Request),
    let body := (requestHead q).extractLsb' 0 160
    let relayed : State := { s with
      frontOut := some body, agent := { s.agent with fifo := s.agent.fifo.tail, phase := .free } }
    (AtService s q → q.dest = 0x01#8 → s.agent.session = .opened →
      (s.frontOut = none → exec .frontRelay s = .next relayed) ∧
      (s.frontOut ≠ none → exec .frontRelay s =
        .next { s with agent := { s.agent with phase := .dispatching } })) ∧
    (s.clock.refclk = true → s.frontOut ≠ none →
      (s.agent.phase = .dispatching → s.agent.fifo.head? = some q → q.dest = 0x01#8 →
        exec .feCommandTxComplete s = .next relayed) ∧
      ((s.agent.phase ≠ .dispatching ∨ ∀ x, s.agent.fifo.head? = some x → x.dest ≠ 0x01#8) →
        exec .feCommandTxComplete s = .next { s with frontOut := none }))

namespace Sys2Proof.Machine.Stated

/-- An item of a READ reply: its value and aux. -/
abbrev Item : Type := Word32 × Word32

/-- An item that is always present. -/
def present (v : Word32) : Item := (v, 0)

/-- A number or a count. -/
def numbered (n : Nat) : Item := present (BitVec.ofNat 32 n)

/-- R193: a flag, 1 when set and 0 when clear. -/
def flagged (b : Bool) : Item := numbered (bit b)

/-- R192: a round that may be absent, which reads as 0 with aux 1. -/
def rounded (r : Option Round) : Item :=
  match r with
  | some x => (x, 0)
  | none => (0, 1)

/-- The reply to a READ of the item `field` of a list in field order (Table 10-6): BADARG past the last. -/
def itemReply (s : State) (q : Request) (items : List Item) (field : Nat) : State :=
  match items[field]? with
  | some (value, aux) => replied s q .ok value aux
  | none => replied s q .badArg 0 0

/-- R37: HISTORY. -/
def historyItems (h : Store) : List Item :=
  [numbered h.ring.length, rounded (h.ring.head?.map Record.round), rounded (h.ring.getLast?.map Record.round),
   rounded h.spanStart]

/-- R57: CONDITION, one unit. -/
def unitItems (u : CondUnit) : List Item :=
  [numbered (match u.state with
    | .idle => 0
    | .qualifying _ => 1
    | .active => 2),
   numbered (match u.state with
    | .qualifying k => k
    | .idle => 0
    | .active => 0),
   rounded u.lastAssert, rounded u.lastRelease,
   (match u.lastDuration with
    | some n => numbered n
    | none => (0, 1)),
   numbered u.assertCount]

/-- R85: TRIGGER, one entry with the two items of the table. -/
def entryItems (t : TriggerTable) (l : EntryLive) : List Item :=
  [numbered (match l.state with
    | .disarmed => 0
    | .armed => 1
    | .holdoff _ => 2
    | .fired => 3),
   numbered l.fireCount, rounded l.lastFire, present l.compare,
   rounded (match l.state with
    | .holdoff base => some base
    | .disarmed => none
    | .armed => none
    | .fired => none),
   flagged l.forceMark, flagged t.held, rounded t.previousVerdict]

/-- Table 10-2: the flags byte of a window as a number. -/
def flagsNumber (f : WinFlags) : Nat :=
  bit f.shortPre + 2 * bit f.extended + 4 * bit f.truncated + 8 * bit f.gap + 16 * bit f.streamLost + 32 * bit f.aborted

/-- R117: WINDOW, one position of the list with the two items of the engine. -/
def windowItems (v : EngineView) (position : Nat) : List Item :=
  (match v.windows[position]? with
   | some w =>
     [numbered (match w.state with
       | .opened => 1
       | .draining => 2
       | .closing => 3
       | .closed => 4),
      numbered w.id.toNat, numbered w.entry.val, present w.trigger, present w.first, present w.last, present w.cursor,
      numbered (flagsNumber w.flags)]
   | none => List.replicate 8 (0, 1)) ++ [flagged v.held, numbered v.nextId.toNat]

/-- R120: the level of a pin: opposite to idle exactly when the unit is not held and the line is enabled and ACTIVE. -/
def pinOfLine (u : LineUnit) (n : Fin 8) : Level :=
  if u.held = false ∧ (u.entries.get n).enable = true ∧ u.lines.get n ≠ .inactive then
    match (u.entries.get n).idle with
    | .low => .high
    | .high => .low
  else (u.entries.get n).idle

/-- R132: LINE, one line with the two items of the unit. -/
def lineItems (u : LineUnit) (n : Fin 8) : List Item :=
  [flagged (decide (u.lines.get n ≠ .inactive)),
   rounded (match u.lines.get n with
    | .pulsing e => some e
    | .levelled => none
    | .inactive => none),
   present (levelWord (pinOfLine u n)), flagged u.held, rounded u.lastStep]

/-- R150: the occupancies of the five classes, and the total. -/
def occupancyItems (g : Egress) : List Item :=
  [numbered g.replies.length, numbered g.events.length, numbered g.windows.length, numbered g.relays.length,
   numbered g.lives.length,
   numbered (g.replies.length + g.events.length + g.windows.length + g.relays.length + g.lives.length)]

/-- R150: the items of EGRESS after the occupancy. -/
def egressItems (g : Egress) : List Item :=
  [numbered g.credits, numbered g.nextSeq.toNat, flagged g.sending.isSome, numbered g.liveLimit,
   numbered g.eventMask.toNat]

/-- R185: AGENT. -/
def agentItems (s : State) : List Item :=
  [numbered (match s.agent.session with
    | .closed => 0
    | .opened => 1
    | .expired => 2),
   numbered s.agent.leasePeriod, numbered (leaseLeft s), numbered s.agent.epoch.toNat, numbered s.agent.writeCount,
   numbered s.agent.fifo.length, flagged s.agent.committing]

/-- Table 9-4: the counters by index. -/
def counterItems (c : Counters) : List Item :=
  [c.streamBadCells, c.controlBadCells, c.roundsAssembled, c.absentSamples, c.straySamples, c.malformedStreamCells,
   c.roundsLost, c.backwardRoundsRefused, c.restarts, c.liveDropped, c.relayDropped, c.eventsDropped,
   c.cellsTransmitted, c.windowsOpened, c.windowsRefused, c.windowsTruncated, c.windowsExtended, c.retriggersIgnored,
   c.windowsDiscarded, c.requestsDropped, c.malformedRequests].map present

/-- R101, R117: what a READ sees of the Window Engine: while a service pass waits for the Egress Queue, the engine as it
was before the event that started it (notes/assumptions/5). -/
def engineSeen (g : Engine) : EngineView :=
  match g.pass with
  | some p => p.before
  | none => { windows := g.windows, held := g.held, nextId := g.nextId }

/-- R167: the reply to a READ of a bank, whose fields WrittenFieldReadsBack states. -/
def bankReply (s : State) (q : Request) (b : Bank) : State :=
  match readBank b q.table.toNat q.index.toNat q.field.toNat with
  | some v => replied s q .ok v 0
  | none => replied s q .badArg 0 0

end Sys2Proof.Machine.Stated

/-- R36, R37, R57, R85, R117, R132, R150, R167, R184, R185, with Tables 9-4, 10-5, 10-6 and 10-7: each READ command
completes in every session state, answers the item that its area, block item, index and field name, with its value and
aux, and changes nothing but the phase and the offered reply; past the last index or field code the answer is BADARG.
What HISTORY answers is HistoryReadClassifiesRound's. While a service pass waits, a READ of WINDOW sees the engine as it
was before the pass's event (notes/assumptions/5, DESIGN CHOICE), and a READ of COUNTERS sees the rises that the event
and its pass have made so far (notes/assumptions/23, DESIGN CHOICE). A READ of an unknown area or block item is answered
BADARG by whichever READ command serves it (notes/assumptions/8, DESIGN CHOICE: the table has no row of its own for
it). -/
def Obligations.ReadsAnswerTheirArea : Prop :=
  ∀ (s : State) (q : Request), Serving s q .read →
    let index := q.index.toNat
    let field := q.field.toNat
    let bad := replied s q .badArg 0 0
    (q.area = 0x00#8 → exec .readActive s = .next (bankReply s q s.agent.active)) ∧
    (q.area = 0x01#8 → exec .readStaging s = .next (bankReply s q s.agent.staging)) ∧
    (q.area = 0x03#8 → exec .readCounters s = .next (itemReply s q (counterItems s.counters) index)) ∧
    (q.area = 0x04#8 → exec .readHistory s = .next (replied s q (answerHistory s.store q).result
      (answerHistory s.store q).value (answerHistory s.store q).aux)) ∧
    (q.area = 0x02#8 → q.table = 0x00#8 →
      exec .readStateHistory s = .next (itemReply s q (historyItems s.store) field)) ∧
    (q.area = 0x02#8 → q.table = 0x01#8 →
      (∀ i : Fin 16, index = i.val →
        exec .readStateCondition s = .next (itemReply s q (unitItems (s.evaluator.units.get i)) field)) ∧
      (16 ≤ index → exec .readStateCondition s = .next bad)) ∧
    (q.area = 0x02#8 → q.table = 0x02#8 →
      (∀ i : Fin 8, index = i.val →
        exec .readStateTrigger s = .next (itemReply s q (entryItems s.table (s.table.live.get i)) field)) ∧
      (8 ≤ index → exec .readStateTrigger s = .next bad)) ∧
    (q.area = 0x02#8 → q.table = 0x03#8 →
      (index ≤ 5 → exec .readStateWindow s = .next (itemReply s q (windowItems (engineSeen s.engine) index) field)) ∧
      (6 ≤ index → exec .readStateWindow s = .next bad)) ∧
    (q.area = 0x02#8 → q.table = 0x04#8 →
      (∀ n : Fin 8, index = n.val →
        exec .readStateLine s = .next (itemReply s q (lineItems s.lines n) field)) ∧
      (8 ≤ index → exec .readStateLine s = .next bad)) ∧
    (q.area = 0x02#8 → q.table = 0x05#8 →
      (field = 0 → exec .readStateEgress s = .next (itemReply s q (occupancyItems s.egress) index)) ∧
      (1 ≤ field → exec .readStateEgress s = .next (itemReply s q (egressItems s.egress) (field - 1)))) ∧
    (q.area = 0x02#8 → q.table = 0x06#8 →
      exec .readStateAgent s = .next (itemReply s q (agentItems s) field)) ∧
    ((4 < q.area.toNat ∨ (q.area = 0x02#8 ∧ 6 < q.table.toNat)) →
      ∀ c ∈ [Instr.readActive, .readStaging, .readHistory, .readCounters, .readStateHistory, .readStateCondition,
        .readStateTrigger, .readStateWindow, .readStateLine, .readStateEgress, .readStateAgent],
        exec c s = .next bad)

/-- R183: no command but CLEAR_COUNTERS and POWER_ON_RESET lowers a counter, and a rise stops at 2^32 - 1. -/
def Obligations.CountersNeverDecrease : Prop :=
  (∀ (c : Instr) (s t : State), exec c s = .next t → c ≠ .clearCounters → c ≠ .powerOnReset →
    ∀ (i : Nat) (v : Word32), counterAt s.counters i = some v →
      ∃ w, counterAt t.counters i = some w ∧ v.toNat ≤ w.toNat) ∧
  (∀ (v : Word32) (k : Nat), (raise v k).toNat = min (v.toNat + k) 4294967295)

/-- R155: every step keeps the epoch law, and under it each block's adopted epoch equals the Agent's or one less, one
less only while a commit is in progress. -/
def Obligations.EpochLawKept : Prop :=
  (∀ s t : State, EpochLaw s → step s = .next t → EpochLaw t) ∧
  (∀ s : State, EpochLaw s → EpochAgrees s s.asm.epoch ∧ EpochAgrees s s.evaluator.epoch ∧
    EpochAgrees s s.table.epoch ∧ EpochAgrees s s.engine.epoch ∧ EpochAgrees s s.lines.epoch)

/-- R172, R173: every step keeps the reply law: one reply outstanding in AWAITING ROOM and none in any other phase,
and a service in progress has its request at the head of the FIFO. -/
def Obligations.ReplyLawKept : Prop :=
  ∀ s t : State, ReplyLaw s → step s = .next t → ReplyLaw t

/-- The laws hold right after a power-on reset. -/
def Obligations.ResetMeetsEveryLaw : Prop := Safe State.reset
end

