-- ==== Sys2Proof/Laws/State.lean ====
section
/-! SUPPORT. One lemma per field for each named update of the state, all true by `rfl`: a later proof rewrites with
them and does not unfold the update. -/

namespace Sys2Proof.Machine

variable (s : State)

@[simp] theorem toBothPaths_clock (x : PathItem) : (toBothPaths s x).clock = s.clock := rfl
@[simp] theorem toBothPaths_asm (x : PathItem) : (toBothPaths s x).asm = s.asm := rfl
@[simp] theorem toBothPaths_store (x : PathItem) : (toBothPaths s x).store = s.store := rfl
@[simp] theorem toBothPaths_evaluator (x : PathItem) : (toBothPaths s x).evaluator = s.evaluator := rfl
@[simp] theorem toBothPaths_table (x : PathItem) : (toBothPaths s x).table = s.table := rfl
@[simp] theorem toBothPaths_engine (x : PathItem) : (toBothPaths s x).engine = s.engine := rfl
@[simp] theorem toBothPaths_lines (x : PathItem) : (toBothPaths s x).lines = s.lines := rfl
@[simp] theorem toBothPaths_egress (x : PathItem) : (toBothPaths s x).egress = s.egress := rfl
@[simp] theorem toBothPaths_agent (x : PathItem) : (toBothPaths s x).agent = s.agent := rfl
@[simp] theorem toBothPaths_frontOut (x : PathItem) : (toBothPaths s x).frontOut = s.frontOut := rfl
@[simp] theorem toBothPaths_counters (x : PathItem) : (toBothPaths s x).counters = s.counters := rfl
@[simp] theorem toBothPaths_paths (x : PathItem) : (toBothPaths s x).paths = { s.paths with
      asmToStore := s.paths.asmToStore ++ [x], asmToEvaluator := s.paths.asmToEvaluator ++ [x] } := rfl
@[simp] theorem toBothPaths_pending (x : PathItem) : (toBothPaths s x).pending = s.pending := rfl

@[simp] theorem asmOffer_clock (x : AssemblerOffer) : (asmOffer s x).clock = s.clock := rfl
@[simp] theorem asmOffer_asm (x : AssemblerOffer) : (asmOffer s x).asm = s.asm := rfl
@[simp] theorem asmOffer_store (x : AssemblerOffer) : (asmOffer s x).store = s.store := rfl
@[simp] theorem asmOffer_evaluator (x : AssemblerOffer) : (asmOffer s x).evaluator = s.evaluator := rfl
@[simp] theorem asmOffer_table (x : AssemblerOffer) : (asmOffer s x).table = s.table := rfl
@[simp] theorem asmOffer_engine (x : AssemblerOffer) : (asmOffer s x).engine = s.engine := rfl
@[simp] theorem asmOffer_lines (x : AssemblerOffer) : (asmOffer s x).lines = s.lines := rfl
@[simp] theorem asmOffer_egress (x : AssemblerOffer) : (asmOffer s x).egress = s.egress := rfl
@[simp] theorem asmOffer_agent (x : AssemblerOffer) : (asmOffer s x).agent = s.agent := rfl
@[simp] theorem asmOffer_frontOut (x : AssemblerOffer) : (asmOffer s x).frontOut = s.frontOut := rfl
@[simp] theorem asmOffer_counters (x : AssemblerOffer) : (asmOffer s x).counters = s.counters := rfl
@[simp] theorem asmOffer_paths (x : AssemblerOffer) : (asmOffer s x).paths = { s.paths with asmOffers := s.paths.asmOffers ++ [x] } := rfl
@[simp] theorem asmOffer_pending (x : AssemblerOffer) : (asmOffer s x).pending = s.pending := rfl

@[simp] theorem storeNotices_clock (xs : List StoreNotice) : (storeNotices s xs).clock = s.clock := rfl
@[simp] theorem storeNotices_asm (xs : List StoreNotice) : (storeNotices s xs).asm = s.asm := rfl
@[simp] theorem storeNotices_store (xs : List StoreNotice) : (storeNotices s xs).store = s.store := rfl
@[simp] theorem storeNotices_evaluator (xs : List StoreNotice) : (storeNotices s xs).evaluator = s.evaluator := rfl
@[simp] theorem storeNotices_table (xs : List StoreNotice) : (storeNotices s xs).table = s.table := rfl
@[simp] theorem storeNotices_engine (xs : List StoreNotice) : (storeNotices s xs).engine = s.engine := rfl
@[simp] theorem storeNotices_lines (xs : List StoreNotice) : (storeNotices s xs).lines = s.lines := rfl
@[simp] theorem storeNotices_egress (xs : List StoreNotice) : (storeNotices s xs).egress = s.egress := rfl
@[simp] theorem storeNotices_agent (xs : List StoreNotice) : (storeNotices s xs).agent = s.agent := rfl
@[simp] theorem storeNotices_frontOut (xs : List StoreNotice) : (storeNotices s xs).frontOut = s.frontOut := rfl
@[simp] theorem storeNotices_counters (xs : List StoreNotice) : (storeNotices s xs).counters = s.counters := rfl
@[simp] theorem storeNotices_paths (xs : List StoreNotice) : (storeNotices s xs).paths = { s.paths with storeToEngine := s.paths.storeToEngine ++ xs } := rfl
@[simp] theorem storeNotices_pending (xs : List StoreNotice) : (storeNotices s xs).pending = s.pending := rfl

@[simp] theorem toTable_clock (x : VerdictItem) : (toTable s x).clock = s.clock := rfl
@[simp] theorem toTable_asm (x : VerdictItem) : (toTable s x).asm = s.asm := rfl
@[simp] theorem toTable_store (x : VerdictItem) : (toTable s x).store = s.store := rfl
@[simp] theorem toTable_evaluator (x : VerdictItem) : (toTable s x).evaluator = s.evaluator := rfl
@[simp] theorem toTable_table (x : VerdictItem) : (toTable s x).table = s.table := rfl
@[simp] theorem toTable_engine (x : VerdictItem) : (toTable s x).engine = s.engine := rfl
@[simp] theorem toTable_lines (x : VerdictItem) : (toTable s x).lines = s.lines := rfl
@[simp] theorem toTable_egress (x : VerdictItem) : (toTable s x).egress = s.egress := rfl
@[simp] theorem toTable_agent (x : VerdictItem) : (toTable s x).agent = s.agent := rfl
@[simp] theorem toTable_frontOut (x : VerdictItem) : (toTable s x).frontOut = s.frontOut := rfl
@[simp] theorem toTable_counters (x : VerdictItem) : (toTable s x).counters = s.counters := rfl
@[simp] theorem toTable_paths (x : VerdictItem) : (toTable s x).paths = { s.paths with evaluatorToTable := s.paths.evaluatorToTable ++ [x] } := rfl
@[simp] theorem toTable_pending (x : VerdictItem) : (toTable s x).pending = s.pending := rfl

@[simp] theorem toEngine_clock (xs : List EngineItem) : (toEngine s xs).clock = s.clock := rfl
@[simp] theorem toEngine_asm (xs : List EngineItem) : (toEngine s xs).asm = s.asm := rfl
@[simp] theorem toEngine_store (xs : List EngineItem) : (toEngine s xs).store = s.store := rfl
@[simp] theorem toEngine_evaluator (xs : List EngineItem) : (toEngine s xs).evaluator = s.evaluator := rfl
@[simp] theorem toEngine_table (xs : List EngineItem) : (toEngine s xs).table = s.table := rfl
@[simp] theorem toEngine_engine (xs : List EngineItem) : (toEngine s xs).engine = s.engine := rfl
@[simp] theorem toEngine_lines (xs : List EngineItem) : (toEngine s xs).lines = s.lines := rfl
@[simp] theorem toEngine_egress (xs : List EngineItem) : (toEngine s xs).egress = s.egress := rfl
@[simp] theorem toEngine_agent (xs : List EngineItem) : (toEngine s xs).agent = s.agent := rfl
@[simp] theorem toEngine_frontOut (xs : List EngineItem) : (toEngine s xs).frontOut = s.frontOut := rfl
@[simp] theorem toEngine_counters (xs : List EngineItem) : (toEngine s xs).counters = s.counters := rfl
@[simp] theorem toEngine_paths (xs : List EngineItem) : (toEngine s xs).paths = { s.paths with tableToEngine := s.paths.tableToEngine ++ xs } := rfl
@[simp] theorem toEngine_pending (xs : List EngineItem) : (toEngine s xs).pending = s.pending := rfl

@[simp] theorem toLines_clock (x : LineItem) : (toLines s x).clock = s.clock := rfl
@[simp] theorem toLines_asm (x : LineItem) : (toLines s x).asm = s.asm := rfl
@[simp] theorem toLines_store (x : LineItem) : (toLines s x).store = s.store := rfl
@[simp] theorem toLines_evaluator (x : LineItem) : (toLines s x).evaluator = s.evaluator := rfl
@[simp] theorem toLines_table (x : LineItem) : (toLines s x).table = s.table := rfl
@[simp] theorem toLines_engine (x : LineItem) : (toLines s x).engine = s.engine := rfl
@[simp] theorem toLines_lines (x : LineItem) : (toLines s x).lines = s.lines := rfl
@[simp] theorem toLines_egress (x : LineItem) : (toLines s x).egress = s.egress := rfl
@[simp] theorem toLines_agent (x : LineItem) : (toLines s x).agent = s.agent := rfl
@[simp] theorem toLines_frontOut (x : LineItem) : (toLines s x).frontOut = s.frontOut := rfl
@[simp] theorem toLines_counters (x : LineItem) : (toLines s x).counters = s.counters := rfl
@[simp] theorem toLines_paths (x : LineItem) : (toLines s x).paths = { s.paths with tableToLines := s.paths.tableToLines ++ [x] } := rfl
@[simp] theorem toLines_pending (x : LineItem) : (toLines s x).pending = s.pending := rfl

@[simp] theorem engineOffer_clock (x : EngineOffer) : (engineOffer s x).clock = s.clock := rfl
@[simp] theorem engineOffer_asm (x : EngineOffer) : (engineOffer s x).asm = s.asm := rfl
@[simp] theorem engineOffer_store (x : EngineOffer) : (engineOffer s x).store = s.store := rfl
@[simp] theorem engineOffer_evaluator (x : EngineOffer) : (engineOffer s x).evaluator = s.evaluator := rfl
@[simp] theorem engineOffer_table (x : EngineOffer) : (engineOffer s x).table = s.table := rfl
@[simp] theorem engineOffer_engine (x : EngineOffer) : (engineOffer s x).engine = s.engine := rfl
@[simp] theorem engineOffer_lines (x : EngineOffer) : (engineOffer s x).lines = s.lines := rfl
@[simp] theorem engineOffer_egress (x : EngineOffer) : (engineOffer s x).egress = s.egress := rfl
@[simp] theorem engineOffer_agent (x : EngineOffer) : (engineOffer s x).agent = s.agent := rfl
@[simp] theorem engineOffer_frontOut (x : EngineOffer) : (engineOffer s x).frontOut = s.frontOut := rfl
@[simp] theorem engineOffer_counters (x : EngineOffer) : (engineOffer s x).counters = s.counters := rfl
@[simp] theorem engineOffer_paths (x : EngineOffer) : (engineOffer s x).paths = { s.paths with engineOffers := s.paths.engineOffers ++ [x] } := rfl
@[simp] theorem engineOffer_pending (x : EngineOffer) : (engineOffer s x).pending = s.pending := rfl

@[simp] theorem engineAck_clock (x : EngineAck) : (engineAck s x).clock = s.clock := rfl
@[simp] theorem engineAck_asm (x : EngineAck) : (engineAck s x).asm = s.asm := rfl
@[simp] theorem engineAck_store (x : EngineAck) : (engineAck s x).store = s.store := rfl
@[simp] theorem engineAck_evaluator (x : EngineAck) : (engineAck s x).evaluator = s.evaluator := rfl
@[simp] theorem engineAck_table (x : EngineAck) : (engineAck s x).table = s.table := rfl
@[simp] theorem engineAck_engine (x : EngineAck) : (engineAck s x).engine = { s.engine with ackDue := some x } := rfl
@[simp] theorem engineAck_lines (x : EngineAck) : (engineAck s x).lines = s.lines := rfl
@[simp] theorem engineAck_egress (x : EngineAck) : (engineAck s x).egress = s.egress := rfl
@[simp] theorem engineAck_agent (x : EngineAck) : (engineAck s x).agent = s.agent := rfl
@[simp] theorem engineAck_frontOut (x : EngineAck) : (engineAck s x).frontOut = s.frontOut := rfl
@[simp] theorem engineAck_counters (x : EngineAck) : (engineAck s x).counters = s.counters := rfl
@[simp] theorem engineAck_paths (x : EngineAck) : (engineAck s x).paths = s.paths := rfl
@[simp] theorem engineAck_pending (x : EngineAck) : (engineAck s x).pending = s.pending := rfl

@[simp] theorem lineAck_clock (x : LineAck) : (lineAck s x).clock = s.clock := rfl
@[simp] theorem lineAck_asm (x : LineAck) : (lineAck s x).asm = s.asm := rfl
@[simp] theorem lineAck_store (x : LineAck) : (lineAck s x).store = s.store := rfl
@[simp] theorem lineAck_evaluator (x : LineAck) : (lineAck s x).evaluator = s.evaluator := rfl
@[simp] theorem lineAck_table (x : LineAck) : (lineAck s x).table = s.table := rfl
@[simp] theorem lineAck_engine (x : LineAck) : (lineAck s x).engine = s.engine := rfl
@[simp] theorem lineAck_lines (x : LineAck) : (lineAck s x).lines = s.lines := rfl
@[simp] theorem lineAck_egress (x : LineAck) : (lineAck s x).egress = s.egress := rfl
@[simp] theorem lineAck_agent (x : LineAck) : (lineAck s x).agent = s.agent := rfl
@[simp] theorem lineAck_frontOut (x : LineAck) : (lineAck s x).frontOut = s.frontOut := rfl
@[simp] theorem lineAck_counters (x : LineAck) : (lineAck s x).counters = s.counters := rfl
@[simp] theorem lineAck_paths (x : LineAck) : (lineAck s x).paths = { s.paths with lineAcks := s.paths.lineAcks ++ [x] } := rfl
@[simp] theorem lineAck_pending (x : LineAck) : (lineAck s x).pending = s.pending := rfl

@[simp] theorem tableAck_clock (x : TriggerAck) : (tableAck s x).clock = s.clock := rfl
@[simp] theorem tableAck_asm (x : TriggerAck) : (tableAck s x).asm = s.asm := rfl
@[simp] theorem tableAck_store (x : TriggerAck) : (tableAck s x).store = s.store := rfl
@[simp] theorem tableAck_evaluator (x : TriggerAck) : (tableAck s x).evaluator = s.evaluator := rfl
@[simp] theorem tableAck_table (x : TriggerAck) : (tableAck s x).table = s.table := rfl
@[simp] theorem tableAck_engine (x : TriggerAck) : (tableAck s x).engine = s.engine := rfl
@[simp] theorem tableAck_lines (x : TriggerAck) : (tableAck s x).lines = s.lines := rfl
@[simp] theorem tableAck_egress (x : TriggerAck) : (tableAck s x).egress = s.egress := rfl
@[simp] theorem tableAck_agent (x : TriggerAck) : (tableAck s x).agent = s.agent := rfl
@[simp] theorem tableAck_frontOut (x : TriggerAck) : (tableAck s x).frontOut = s.frontOut := rfl
@[simp] theorem tableAck_counters (x : TriggerAck) : (tableAck s x).counters = s.counters := rfl
@[simp] theorem tableAck_paths (x : TriggerAck) : (tableAck s x).paths = { s.paths with tableAcks := s.paths.tableAcks ++ [x] } := rfl
@[simp] theorem tableAck_pending (x : TriggerAck) : (tableAck s x).pending = s.pending := rfl

@[simp] theorem noticeToTable_clock (x : TriggerNotice) : (noticeToTable s x).clock = s.clock := rfl
@[simp] theorem noticeToTable_asm (x : TriggerNotice) : (noticeToTable s x).asm = s.asm := rfl
@[simp] theorem noticeToTable_store (x : TriggerNotice) : (noticeToTable s x).store = s.store := rfl
@[simp] theorem noticeToTable_evaluator (x : TriggerNotice) : (noticeToTable s x).evaluator = s.evaluator := rfl
@[simp] theorem noticeToTable_table (x : TriggerNotice) : (noticeToTable s x).table = s.table := rfl
@[simp] theorem noticeToTable_engine (x : TriggerNotice) : (noticeToTable s x).engine = s.engine := rfl
@[simp] theorem noticeToTable_lines (x : TriggerNotice) : (noticeToTable s x).lines = s.lines := rfl
@[simp] theorem noticeToTable_egress (x : TriggerNotice) : (noticeToTable s x).egress = s.egress := rfl
@[simp] theorem noticeToTable_agent (x : TriggerNotice) : (noticeToTable s x).agent = s.agent := rfl
@[simp] theorem noticeToTable_frontOut (x : TriggerNotice) : (noticeToTable s x).frontOut = s.frontOut := rfl
@[simp] theorem noticeToTable_counters (x : TriggerNotice) : (noticeToTable s x).counters = s.counters := rfl
@[simp] theorem noticeToTable_paths (x : TriggerNotice) : (noticeToTable s x).paths = { s.paths with agentToTable := s.paths.agentToTable ++ [x] } := rfl
@[simp] theorem noticeToTable_pending (x : TriggerNotice) : (noticeToTable s x).pending = s.pending := rfl

@[simp] theorem noticeToLines_clock (x : LineNotice) : (noticeToLines s x).clock = s.clock := rfl
@[simp] theorem noticeToLines_asm (x : LineNotice) : (noticeToLines s x).asm = s.asm := rfl
@[simp] theorem noticeToLines_store (x : LineNotice) : (noticeToLines s x).store = s.store := rfl
@[simp] theorem noticeToLines_evaluator (x : LineNotice) : (noticeToLines s x).evaluator = s.evaluator := rfl
@[simp] theorem noticeToLines_table (x : LineNotice) : (noticeToLines s x).table = s.table := rfl
@[simp] theorem noticeToLines_engine (x : LineNotice) : (noticeToLines s x).engine = s.engine := rfl
@[simp] theorem noticeToLines_lines (x : LineNotice) : (noticeToLines s x).lines = s.lines := rfl
@[simp] theorem noticeToLines_egress (x : LineNotice) : (noticeToLines s x).egress = s.egress := rfl
@[simp] theorem noticeToLines_agent (x : LineNotice) : (noticeToLines s x).agent = s.agent := rfl
@[simp] theorem noticeToLines_frontOut (x : LineNotice) : (noticeToLines s x).frontOut = s.frontOut := rfl
@[simp] theorem noticeToLines_counters (x : LineNotice) : (noticeToLines s x).counters = s.counters := rfl
@[simp] theorem noticeToLines_paths (x : LineNotice) : (noticeToLines s x).paths = { s.paths with agentToLines := s.paths.agentToLines ++ [x] } := rfl
@[simp] theorem noticeToLines_pending (x : LineNotice) : (noticeToLines s x).pending = s.pending := rfl

@[simp] theorem noticeToEngine_clock (x : EngineNotice) : (noticeToEngine s x).clock = s.clock := rfl
@[simp] theorem noticeToEngine_asm (x : EngineNotice) : (noticeToEngine s x).asm = s.asm := rfl
@[simp] theorem noticeToEngine_store (x : EngineNotice) : (noticeToEngine s x).store = s.store := rfl
@[simp] theorem noticeToEngine_evaluator (x : EngineNotice) : (noticeToEngine s x).evaluator = s.evaluator := rfl
@[simp] theorem noticeToEngine_table (x : EngineNotice) : (noticeToEngine s x).table = s.table := rfl
@[simp] theorem noticeToEngine_engine (x : EngineNotice) : (noticeToEngine s x).engine = s.engine := rfl
@[simp] theorem noticeToEngine_lines (x : EngineNotice) : (noticeToEngine s x).lines = s.lines := rfl
@[simp] theorem noticeToEngine_egress (x : EngineNotice) : (noticeToEngine s x).egress = s.egress := rfl
@[simp] theorem noticeToEngine_agent (x : EngineNotice) : (noticeToEngine s x).agent = s.agent := rfl
@[simp] theorem noticeToEngine_frontOut (x : EngineNotice) : (noticeToEngine s x).frontOut = s.frontOut := rfl
@[simp] theorem noticeToEngine_counters (x : EngineNotice) : (noticeToEngine s x).counters = s.counters := rfl
@[simp] theorem noticeToEngine_paths (x : EngineNotice) : (noticeToEngine s x).paths = { s.paths with agentToEngine := s.paths.agentToEngine ++ [x] } := rfl
@[simp] theorem noticeToEngine_pending (x : EngineNotice) : (noticeToEngine s x).pending = s.pending := rfl

@[simp] theorem startAssembler_clock (x : AssemblerStart) : (startAssembler s x).clock = s.clock := rfl
@[simp] theorem startAssembler_asm (x : AssemblerStart) : (startAssembler s x).asm = s.asm := rfl
@[simp] theorem startAssembler_store (x : AssemblerStart) : (startAssembler s x).store = s.store := rfl
@[simp] theorem startAssembler_evaluator (x : AssemblerStart) : (startAssembler s x).evaluator = s.evaluator := rfl
@[simp] theorem startAssembler_table (x : AssemblerStart) : (startAssembler s x).table = s.table := rfl
@[simp] theorem startAssembler_engine (x : AssemblerStart) : (startAssembler s x).engine = s.engine := rfl
@[simp] theorem startAssembler_lines (x : AssemblerStart) : (startAssembler s x).lines = s.lines := rfl
@[simp] theorem startAssembler_egress (x : AssemblerStart) : (startAssembler s x).egress = s.egress := rfl
@[simp] theorem startAssembler_agent (x : AssemblerStart) : (startAssembler s x).agent = s.agent := rfl
@[simp] theorem startAssembler_frontOut (x : AssemblerStart) : (startAssembler s x).frontOut = s.frontOut := rfl
@[simp] theorem startAssembler_counters (x : AssemblerStart) : (startAssembler s x).counters = s.counters := rfl
@[simp] theorem startAssembler_paths (x : AssemblerStart) : (startAssembler s x).paths = { s.paths with agentToAsm := s.paths.agentToAsm ++ [x] } := rfl
@[simp] theorem startAssembler_pending (x : AssemblerStart) : (startAssembler s x).pending = s.pending := rfl

@[simp] theorem agentOffer_clock (x : AgentOffer) : (agentOffer s x).clock = s.clock := rfl
@[simp] theorem agentOffer_asm (x : AgentOffer) : (agentOffer s x).asm = s.asm := rfl
@[simp] theorem agentOffer_store (x : AgentOffer) : (agentOffer s x).store = s.store := rfl
@[simp] theorem agentOffer_evaluator (x : AgentOffer) : (agentOffer s x).evaluator = s.evaluator := rfl
@[simp] theorem agentOffer_table (x : AgentOffer) : (agentOffer s x).table = s.table := rfl
@[simp] theorem agentOffer_engine (x : AgentOffer) : (agentOffer s x).engine = s.engine := rfl
@[simp] theorem agentOffer_lines (x : AgentOffer) : (agentOffer s x).lines = s.lines := rfl
@[simp] theorem agentOffer_egress (x : AgentOffer) : (agentOffer s x).egress = s.egress := rfl
@[simp] theorem agentOffer_agent (x : AgentOffer) : (agentOffer s x).agent = s.agent := rfl
@[simp] theorem agentOffer_frontOut (x : AgentOffer) : (agentOffer s x).frontOut = s.frontOut := rfl
@[simp] theorem agentOffer_counters (x : AgentOffer) : (agentOffer s x).counters = s.counters := rfl
@[simp] theorem agentOffer_paths (x : AgentOffer) : (agentOffer s x).paths = { s.paths with agentOffers := s.paths.agentOffers ++ [x] } := rfl
@[simp] theorem agentOffer_pending (x : AgentOffer) : (agentOffer s x).pending = s.pending := rfl

@[simp] theorem settingsToQueue_clock (x : QueueSettings) : (settingsToQueue s x).clock = s.clock := rfl
@[simp] theorem settingsToQueue_asm (x : QueueSettings) : (settingsToQueue s x).asm = s.asm := rfl
@[simp] theorem settingsToQueue_store (x : QueueSettings) : (settingsToQueue s x).store = s.store := rfl
@[simp] theorem settingsToQueue_evaluator (x : QueueSettings) : (settingsToQueue s x).evaluator = s.evaluator := rfl
@[simp] theorem settingsToQueue_table (x : QueueSettings) : (settingsToQueue s x).table = s.table := rfl
@[simp] theorem settingsToQueue_engine (x : QueueSettings) : (settingsToQueue s x).engine = s.engine := rfl
@[simp] theorem settingsToQueue_lines (x : QueueSettings) : (settingsToQueue s x).lines = s.lines := rfl
@[simp] theorem settingsToQueue_egress (x : QueueSettings) : (settingsToQueue s x).egress = s.egress := rfl
@[simp] theorem settingsToQueue_agent (x : QueueSettings) : (settingsToQueue s x).agent = s.agent := rfl
@[simp] theorem settingsToQueue_frontOut (x : QueueSettings) : (settingsToQueue s x).frontOut = s.frontOut := rfl
@[simp] theorem settingsToQueue_counters (x : QueueSettings) : (settingsToQueue s x).counters = s.counters := rfl
@[simp] theorem settingsToQueue_paths (x : QueueSettings) : (settingsToQueue s x).paths = { s.paths with settings := s.paths.settings ++ [x] } := rfl
@[simp] theorem settingsToQueue_pending (x : QueueSettings) : (settingsToQueue s x).pending = s.pending := rfl

@[simp] theorem admitWindow_clock (cs : List WindowCell) : (admitWindow s cs).clock = s.clock := rfl
@[simp] theorem admitWindow_asm (cs : List WindowCell) : (admitWindow s cs).asm = s.asm := rfl
@[simp] theorem admitWindow_store (cs : List WindowCell) : (admitWindow s cs).store = s.store := rfl
@[simp] theorem admitWindow_evaluator (cs : List WindowCell) : (admitWindow s cs).evaluator = s.evaluator := rfl
@[simp] theorem admitWindow_table (cs : List WindowCell) : (admitWindow s cs).table = s.table := rfl
@[simp] theorem admitWindow_engine (cs : List WindowCell) : (admitWindow s cs).engine = s.engine := rfl
@[simp] theorem admitWindow_lines (cs : List WindowCell) : (admitWindow s cs).lines = s.lines := rfl
@[simp] theorem admitWindow_egress (cs : List WindowCell) : (admitWindow s cs).egress = { s.egress with windows := s.egress.windows ++ cs } := rfl
@[simp] theorem admitWindow_agent (cs : List WindowCell) : (admitWindow s cs).agent = s.agent := rfl
@[simp] theorem admitWindow_frontOut (cs : List WindowCell) : (admitWindow s cs).frontOut = s.frontOut := rfl
@[simp] theorem admitWindow_counters (cs : List WindowCell) : (admitWindow s cs).counters = s.counters := rfl
@[simp] theorem admitWindow_paths (cs : List WindowCell) : (admitWindow s cs).paths = s.paths := rfl
@[simp] theorem admitWindow_pending (cs : List WindowCell) : (admitWindow s cs).pending = s.pending := rfl

@[simp] theorem endService_clock : (endService s).clock = s.clock := rfl
@[simp] theorem endService_asm : (endService s).asm = s.asm := rfl
@[simp] theorem endService_store : (endService s).store = s.store := rfl
@[simp] theorem endService_evaluator : (endService s).evaluator = s.evaluator := rfl
@[simp] theorem endService_table : (endService s).table = s.table := rfl
@[simp] theorem endService_engine : (endService s).engine = s.engine := rfl
@[simp] theorem endService_lines : (endService s).lines = s.lines := rfl
@[simp] theorem endService_egress : (endService s).egress = s.egress := rfl
@[simp] theorem endService_agent : (endService s).agent = { s.agent with fifo := s.agent.fifo.tail, phase := .free } := rfl
@[simp] theorem endService_frontOut : (endService s).frontOut = s.frontOut := rfl
@[simp] theorem endService_counters : (endService s).counters = s.counters := rfl
@[simp] theorem endService_paths : (endService s).paths = s.paths := rfl
@[simp] theorem endService_pending : (endService s).pending = s.pending := rfl

@[simp] theorem reach_clock (e : Nat) : (reach s e).clock = { s.clock with localTimer := max s.clock.localTimer e } := rfl
@[simp] theorem reach_asm (e : Nat) : (reach s e).asm = s.asm := rfl
@[simp] theorem reach_store (e : Nat) : (reach s e).store = s.store := rfl
@[simp] theorem reach_evaluator (e : Nat) : (reach s e).evaluator = s.evaluator := rfl
@[simp] theorem reach_table (e : Nat) : (reach s e).table = s.table := rfl
@[simp] theorem reach_engine (e : Nat) : (reach s e).engine = s.engine := rfl
@[simp] theorem reach_lines (e : Nat) : (reach s e).lines = s.lines := rfl
@[simp] theorem reach_egress (e : Nat) : (reach s e).egress = s.egress := rfl
@[simp] theorem reach_agent (e : Nat) : (reach s e).agent = s.agent := rfl
@[simp] theorem reach_frontOut (e : Nat) : (reach s e).frontOut = s.frontOut := rfl
@[simp] theorem reach_counters (e : Nat) : (reach s e).counters = s.counters := rfl
@[simp] theorem reach_paths (e : Nat) : (reach s e).paths = s.paths := rfl
@[simp] theorem reach_pending (e : Nat) : (reach s e).pending = s.pending := rfl

@[simp] theorem mapWindows_clock (f : Window → Window) : (mapWindows s f).clock = s.clock := rfl
@[simp] theorem mapWindows_asm (f : Window → Window) : (mapWindows s f).asm = s.asm := rfl
@[simp] theorem mapWindows_store (f : Window → Window) : (mapWindows s f).store = s.store := rfl
@[simp] theorem mapWindows_evaluator (f : Window → Window) : (mapWindows s f).evaluator = s.evaluator := rfl
@[simp] theorem mapWindows_table (f : Window → Window) : (mapWindows s f).table = s.table := rfl
@[simp] theorem mapWindows_engine (f : Window → Window) : (mapWindows s f).engine = { s.engine with windows := s.engine.windows.map f } := rfl
@[simp] theorem mapWindows_lines (f : Window → Window) : (mapWindows s f).lines = s.lines := rfl
@[simp] theorem mapWindows_egress (f : Window → Window) : (mapWindows s f).egress = s.egress := rfl
@[simp] theorem mapWindows_agent (f : Window → Window) : (mapWindows s f).agent = s.agent := rfl
@[simp] theorem mapWindows_frontOut (f : Window → Window) : (mapWindows s f).frontOut = s.frontOut := rfl
@[simp] theorem mapWindows_counters (f : Window → Window) : (mapWindows s f).counters = s.counters := rfl
@[simp] theorem mapWindows_paths (f : Window → Window) : (mapWindows s f).paths = s.paths := rfl
@[simp] theorem mapWindows_pending (f : Window → Window) : (mapWindows s f).pending = s.pending := rfl

@[simp] theorem endPass_clock : (endPass s).clock = s.clock := rfl
@[simp] theorem endPass_asm : (endPass s).asm = s.asm := rfl
@[simp] theorem endPass_store : (endPass s).store = s.store := rfl
@[simp] theorem endPass_evaluator : (endPass s).evaluator = s.evaluator := rfl
@[simp] theorem endPass_table : (endPass s).table = s.table := rfl
@[simp] theorem endPass_engine : (endPass s).engine = { s.engine with pass := none, ackDue := none } := rfl
@[simp] theorem endPass_lines : (endPass s).lines = s.lines := rfl
@[simp] theorem endPass_egress : (endPass s).egress = s.egress := rfl
@[simp] theorem endPass_agent : (endPass s).agent = s.agent := rfl
@[simp] theorem endPass_frontOut : (endPass s).frontOut = s.frontOut := rfl
@[simp] theorem endPass_counters : (endPass s).counters = s.counters := rfl
@[simp] theorem endPass_paths : (endPass s).paths = { s.paths with engineAcks := s.paths.engineAcks ++ s.engine.ackDue.toList } := rfl
@[simp] theorem endPass_pending : (endPass s).pending = s.pending := rfl

@[simp] theorem setStage_clock (p : Pass) (st : PassStage) : (setStage s p st).clock = s.clock := rfl
@[simp] theorem setStage_asm (p : Pass) (st : PassStage) : (setStage s p st).asm = s.asm := rfl
@[simp] theorem setStage_store (p : Pass) (st : PassStage) : (setStage s p st).store = s.store := rfl
@[simp] theorem setStage_evaluator (p : Pass) (st : PassStage) : (setStage s p st).evaluator = s.evaluator := rfl
@[simp] theorem setStage_table (p : Pass) (st : PassStage) : (setStage s p st).table = s.table := rfl
@[simp] theorem setStage_engine (p : Pass) (st : PassStage) : (setStage s p st).engine = { s.engine with pass := some { p with stage := st } } := rfl
@[simp] theorem setStage_lines (p : Pass) (st : PassStage) : (setStage s p st).lines = s.lines := rfl
@[simp] theorem setStage_egress (p : Pass) (st : PassStage) : (setStage s p st).egress = s.egress := rfl
@[simp] theorem setStage_agent (p : Pass) (st : PassStage) : (setStage s p st).agent = s.agent := rfl
@[simp] theorem setStage_frontOut (p : Pass) (st : PassStage) : (setStage s p st).frontOut = s.frontOut := rfl
@[simp] theorem setStage_counters (p : Pass) (st : PassStage) : (setStage s p st).counters = s.counters := rfl
@[simp] theorem setStage_paths (p : Pass) (st : PassStage) : (setStage s p st).paths = s.paths := rfl
@[simp] theorem setStage_pending (p : Pass) (st : PassStage) : (setStage s p st).pending = s.pending := rfl

@[simp] theorem changeUnits_clock (f : Fin 16 → CondUnit → CondUnit) : (changeUnits s f).clock = s.clock := rfl
@[simp] theorem changeUnits_asm (f : Fin 16 → CondUnit → CondUnit) : (changeUnits s f).asm = s.asm := rfl
@[simp] theorem changeUnits_store (f : Fin 16 → CondUnit → CondUnit) : (changeUnits s f).store = s.store := rfl
@[simp] theorem changeUnits_evaluator (f : Fin 16 → CondUnit → CondUnit) : (changeUnits s f).evaluator = { s.evaluator with units := Vector.ofFn fun i => f i (s.evaluator.units.get i) } := rfl
@[simp] theorem changeUnits_table (f : Fin 16 → CondUnit → CondUnit) : (changeUnits s f).table = s.table := rfl
@[simp] theorem changeUnits_engine (f : Fin 16 → CondUnit → CondUnit) : (changeUnits s f).engine = s.engine := rfl
@[simp] theorem changeUnits_lines (f : Fin 16 → CondUnit → CondUnit) : (changeUnits s f).lines = s.lines := rfl
@[simp] theorem changeUnits_egress (f : Fin 16 → CondUnit → CondUnit) : (changeUnits s f).egress = s.egress := rfl
@[simp] theorem changeUnits_agent (f : Fin 16 → CondUnit → CondUnit) : (changeUnits s f).agent = s.agent := rfl
@[simp] theorem changeUnits_frontOut (f : Fin 16 → CondUnit → CondUnit) : (changeUnits s f).frontOut = s.frontOut := rfl
@[simp] theorem changeUnits_counters (f : Fin 16 → CondUnit → CondUnit) : (changeUnits s f).counters = s.counters := rfl
@[simp] theorem changeUnits_paths (f : Fin 16 → CondUnit → CondUnit) : (changeUnits s f).paths = s.paths := rfl
@[simp] theorem changeUnits_pending (f : Fin 16 → CondUnit → CondUnit) : (changeUnits s f).pending = s.pending := rfl

@[simp] theorem changeEntries_clock (f : Fin 8 → EntryLive → EntryLive) : (changeEntries s f).clock = s.clock := rfl
@[simp] theorem changeEntries_asm (f : Fin 8 → EntryLive → EntryLive) : (changeEntries s f).asm = s.asm := rfl
@[simp] theorem changeEntries_store (f : Fin 8 → EntryLive → EntryLive) : (changeEntries s f).store = s.store := rfl
@[simp] theorem changeEntries_evaluator (f : Fin 8 → EntryLive → EntryLive) : (changeEntries s f).evaluator = s.evaluator := rfl
@[simp] theorem changeEntries_table (f : Fin 8 → EntryLive → EntryLive) : (changeEntries s f).table = { s.table with live := Vector.ofFn fun i => f i (s.table.live.get i) } := rfl
@[simp] theorem changeEntries_engine (f : Fin 8 → EntryLive → EntryLive) : (changeEntries s f).engine = s.engine := rfl
@[simp] theorem changeEntries_lines (f : Fin 8 → EntryLive → EntryLive) : (changeEntries s f).lines = s.lines := rfl
@[simp] theorem changeEntries_egress (f : Fin 8 → EntryLive → EntryLive) : (changeEntries s f).egress = s.egress := rfl
@[simp] theorem changeEntries_agent (f : Fin 8 → EntryLive → EntryLive) : (changeEntries s f).agent = s.agent := rfl
@[simp] theorem changeEntries_frontOut (f : Fin 8 → EntryLive → EntryLive) : (changeEntries s f).frontOut = s.frontOut := rfl
@[simp] theorem changeEntries_counters (f : Fin 8 → EntryLive → EntryLive) : (changeEntries s f).counters = s.counters := rfl
@[simp] theorem changeEntries_paths (f : Fin 8 → EntryLive → EntryLive) : (changeEntries s f).paths = s.paths := rfl
@[simp] theorem changeEntries_pending (f : Fin 8 → EntryLive → EntryLive) : (changeEntries s f).pending = s.pending := rfl

@[simp] theorem changeLines_clock (f : Fin 8 → LineState → LineState) : (changeLines s f).clock = s.clock := rfl
@[simp] theorem changeLines_asm (f : Fin 8 → LineState → LineState) : (changeLines s f).asm = s.asm := rfl
@[simp] theorem changeLines_store (f : Fin 8 → LineState → LineState) : (changeLines s f).store = s.store := rfl
@[simp] theorem changeLines_evaluator (f : Fin 8 → LineState → LineState) : (changeLines s f).evaluator = s.evaluator := rfl
@[simp] theorem changeLines_table (f : Fin 8 → LineState → LineState) : (changeLines s f).table = s.table := rfl
@[simp] theorem changeLines_engine (f : Fin 8 → LineState → LineState) : (changeLines s f).engine = s.engine := rfl
@[simp] theorem changeLines_lines (f : Fin 8 → LineState → LineState) : (changeLines s f).lines = { s.lines with lines := Vector.ofFn fun n => f n (s.lines.lines.get n) } := rfl
@[simp] theorem changeLines_egress (f : Fin 8 → LineState → LineState) : (changeLines s f).egress = s.egress := rfl
@[simp] theorem changeLines_agent (f : Fin 8 → LineState → LineState) : (changeLines s f).agent = s.agent := rfl
@[simp] theorem changeLines_frontOut (f : Fin 8 → LineState → LineState) : (changeLines s f).frontOut = s.frontOut := rfl
@[simp] theorem changeLines_counters (f : Fin 8 → LineState → LineState) : (changeLines s f).counters = s.counters := rfl
@[simp] theorem changeLines_paths (f : Fin 8 → LineState → LineState) : (changeLines s f).paths = s.paths := rfl
@[simp] theorem changeLines_pending (f : Fin 8 → LineState → LineState) : (changeLines s f).pending = s.pending := rfl

@[simp] theorem discardWindows_clock (gone : Window → Bool) : (discardWindows s gone).clock = s.clock := rfl
@[simp] theorem discardWindows_asm (gone : Window → Bool) : (discardWindows s gone).asm = s.asm := rfl
@[simp] theorem discardWindows_store (gone : Window → Bool) : (discardWindows s gone).store = s.store := rfl
@[simp] theorem discardWindows_evaluator (gone : Window → Bool) : (discardWindows s gone).evaluator = s.evaluator := rfl
@[simp] theorem discardWindows_table (gone : Window → Bool) : (discardWindows s gone).table = s.table := rfl
@[simp] theorem discardWindows_engine (gone : Window → Bool) : (discardWindows s gone).engine = { s.engine with windows := s.engine.windows.filter fun w => !gone w } := rfl
@[simp] theorem discardWindows_lines (gone : Window → Bool) : (discardWindows s gone).lines = s.lines := rfl
@[simp] theorem discardWindows_egress (gone : Window → Bool) : (discardWindows s gone).egress = s.egress := rfl
@[simp] theorem discardWindows_agent (gone : Window → Bool) : (discardWindows s gone).agent = s.agent := rfl
@[simp] theorem discardWindows_frontOut (gone : Window → Bool) : (discardWindows s gone).frontOut = s.frontOut := rfl
@[simp] theorem discardWindows_paths (gone : Window → Bool) : (discardWindows s gone).paths = s.paths := rfl
@[simp] theorem discardWindows_pending (gone : Window → Bool) : (discardWindows s gone).pending = s.pending := rfl

@[simp] theorem countTruncated_clock (now : Window → Bool) : (countTruncated s now).clock = s.clock := rfl
@[simp] theorem countTruncated_asm (now : Window → Bool) : (countTruncated s now).asm = s.asm := rfl
@[simp] theorem countTruncated_store (now : Window → Bool) : (countTruncated s now).store = s.store := rfl
@[simp] theorem countTruncated_evaluator (now : Window → Bool) : (countTruncated s now).evaluator = s.evaluator := rfl
@[simp] theorem countTruncated_table (now : Window → Bool) : (countTruncated s now).table = s.table := rfl
@[simp] theorem countTruncated_engine (now : Window → Bool) : (countTruncated s now).engine = s.engine := rfl
@[simp] theorem countTruncated_lines (now : Window → Bool) : (countTruncated s now).lines = s.lines := rfl
@[simp] theorem countTruncated_egress (now : Window → Bool) : (countTruncated s now).egress = s.egress := rfl
@[simp] theorem countTruncated_agent (now : Window → Bool) : (countTruncated s now).agent = s.agent := rfl
@[simp] theorem countTruncated_frontOut (now : Window → Bool) : (countTruncated s now).frontOut = s.frontOut := rfl
@[simp] theorem countTruncated_paths (now : Window → Bool) : (countTruncated s now).paths = s.paths := rfl
@[simp] theorem countTruncated_pending (now : Window → Bool) : (countTruncated s now).pending = s.pending := rfl

end Sys2Proof.Machine
end

