-- ==== Sys2Proof/Laws/Ops.lean ====
section
/-! SUPPORT. What the shared operations do, once each: counters, sets, the local timer, admission, the service frame
of the Agent and the input paths of the Window Engine. -/

namespace Sys2Proof.Machine

/-! ## Counters and sets -/

/-- R183: a raised counter, as a number. -/
theorem raise_toNat (c : Word32) (k : Nat) : (raise c k).toNat = min (c.toNat + k) 4294967295 := by
  simp only [raise, Config.counterLimit, BitVec.toNat_ofNat]
  omega

/-- R183: a counter does not decrease when it is raised. -/
theorem le_raise (c : Word32) (k : Nat) : c.toNat ≤ (raise c k).toNat := by
  rw [raise_toNat]
  have := c.isLt
  omega

/-- A saturating count stays within its range. -/
theorem raiseCount_le (n : Nat) : raiseCount n ≤ 65535 := Nat.min_le_right _ _

/-- The element of a vector built from a function. -/
@[simp] theorem get_ofFn {α : Type} {n : Nat} (f : Fin n → α) (i : Fin n) : (Vector.ofFn f).get i = f i := by
  show (Vector.ofFn f)[i.val] = f i
  rw [Vector.getElem_ofFn]

/-- The channels of a mask are those whose bit is set. -/
theorem mem_channelsOf (m : ChannelMask) (i : Fin 16) : i ∈ channelsOf m ↔ m.getLsbD i.val = true := by
  simp [channelsOf]

/-- A fold that sets bits: bit `j` of the result. -/
theorem foldl_setBit (p : Fin 16 → Bool) (j : Fin 16) : ∀ (l : List (Fin 16)) (m : ChannelMask),
    (l.foldl (fun m i => if p i then m ||| BitVec.ofNat 16 (2 ^ i.val) else m) m).getLsbD j.val =
      (m.getLsbD j.val || l.any fun i => p i && decide (i = j)) := by
  intro l
  induction l with
  | nil => intro m; simp
  | cons i l ih =>
    intro m
    have hbit : (BitVec.ofNat 16 (2 ^ i.val)).getLsbD j.val = decide (i = j) := by
      rw [BitVec.getLsbD_ofNat, Nat.testBit_two_pow]
      have := j.isLt
      simp only [this, decide_true, Bool.true_and, Fin.ext_iff]
    simp only [List.foldl_cons, List.any_cons]
    rw [ih]
    by_cases hp : p i = true
    · simp only [hp, if_true, BitVec.getLsbD_or, hbit, Bool.true_and, Bool.or_assoc]
    · simp only [hp, if_false, Bool.false_and, Bool.false_or, Bool.false_eq_true]

/-- Bit `i` of a mask built from a predicate. -/
@[simp] theorem getLsbD_maskOf (p : Fin 16 → Bool) (i : Fin 16) : (maskOf p).getLsbD i.val = p i := by
  unfold maskOf
  rw [foldl_setBit]
  rw [show (0 : ChannelMask).getLsbD i.val = false from BitVec.getLsbD_zero, Bool.false_or]
  rw [Bool.eq_iff_iff, List.any_eq_true]
  constructor
  · rintro ⟨j, -, hj⟩
    simp only [Bool.and_eq_true, decide_eq_true_eq] at hj
    rw [← hj.2]; exact hj.1
  · intro h
    exact ⟨i, List.mem_finRange i, by simp [h]⟩

/-! ## The local timer -/

/-- The local timer does not run backward. -/
theorem le_timerAfter (s : State) (dt : Nat) : s.clock.localTimer ≤ timerAfter s dt := Nat.le_max_left _ _

/-- What passing time changes: the local timer, and that only while REFCLK is present. -/
theorem elapse_spec (s : State) (dt : Nat) :
    elapse s dt = { s with clock := { s.clock with
      localTimer := if s.clock.refclk then timerAfter s dt else s.clock.localTimer } } := by
  unfold elapse
  split <;> rfl

/-- A cell on a lane: what the block does with it after the time has passed, or nothing with REFCLK lost. -/
theorem onLane_cases (s : State) (dt : Nat) (f : State → State) :
    (s.clock.refclk = true ∧ onLane s dt f = f (elapse s dt)) ∨ (s.clock.refclk = false ∧ onLane s dt f = s) := by
  unfold onLane
  cases h : s.clock.refclk <;> simp

/-! ## Admission -/

/-- R139: everything an EVENT offer can do. -/
theorem admitEvent_cases (s : State) (e : EventCell) :
    (eventEnabled s.egress.eventMask e.code = false ∧ admitEvent s e = s) ∨
    (eventEnabled s.egress.eventMask e.code = true ∧ occupancy s.egress < 250 ∧
      admitEvent s e = { s with egress := { s.egress with events := s.egress.events ++ [e] } }) ∨
    (eventEnabled s.egress.eventMask e.code = true ∧ 250 ≤ occupancy s.egress ∧
      admitEvent s e = { s with counters := { s.counters with eventsDropped := raise s.counters.eventsDropped 1 } }) := by
  unfold admitEvent
  split
  · split
    · rename_i h1 h2; exact Or.inr (Or.inl ⟨h1, h2, rfl⟩)
    · rename_i h1 h2; exact Or.inr (Or.inr ⟨h1, by simpa [Config.reserveLimit] using h2, rfl⟩)
  · rename_i h; exact Or.inl ⟨by simpa using h, rfl⟩

/-- R140, R172: what the admission of a reply changes. -/
theorem admitReply_spec (s : State) (c : ReplyCell) :
    admitReply s c = { s with
      egress := { s.egress with replies := s.egress.replies ++ [c] }
      agent := { s.agent with fifo := s.agent.fifo.tail, phase := .free } } := rfl

/-! ## The Agent's services -/

/-- A service command does what it does to the head request it is for, and otherwise nothing. -/
theorem serve_cases (s : State) (k : Kind) (act : State → Request → State) :
    (∃ q, headToServe s = some q ∧ destinationOf q.dest = some .node ∧ kindOf q.kind = some k ∧ serve s k act = act s q) ∨
    serve s k act = s := by
  unfold serve
  split
  · split
    · rename_i q hq h; exact Or.inl ⟨q, hq, h.1, h.2, rfl⟩
    · exact Or.inr rfl
  · exact Or.inr rfl

/-- A request the Agent may serve: the head of the FIFO, with nothing else in progress. -/
theorem headToServe_eq {s : State} {q : Request} (h : headToServe s = some q) :
    s.agent.phase = .free ∧ s.agent.nodeResetting = false ∧ s.agent.committing = false ∧ s.agent.fifo.head? = some q := by
  unfold headToServe at h
  split at h
  · rename_i hc; exact ⟨hc.1, hc.2.1, hc.2.2, h⟩
  · cases h

/-- R173, check 2: what a kind that needs the session does. -/
theorem needsSession_cases (act : State → Request → State) (s : State) (q : Request) :
    (s.agent.session = .opened ∧ needsSession act s q = act s q) ∨
    (s.agent.session = .closed ∧ needsSession act s q = bareReply s q .noSession) ∨
    (s.agent.session = .expired ∧ needsSession act s q = bareReply s q .expired) := by
  unfold needsSession
  cases s.agent.session <;> simp

/-! ## The Window Engine's paths -/

/-- An event on the Trigger Table's path: the event and its pass, or nothing. -/
theorem onTablePath_cases (s : State) (f : EngineItem → Option (State → State)) :
    (∃ x rest act, s.engine.pass = none ∧ s.paths.tableToEngine = x :: rest ∧ f x = some act ∧
      onTablePath s f = engineEvent { s with paths := { s.paths with tableToEngine := rest } } act) ∨
    onTablePath s f = s := by
  unfold onTablePath
  split
  · rename_i x rest h1 h2
    split
    · rename_i act h3; exact Or.inl ⟨x, rest, act, h1, h2, h3, rfl⟩
    · exact Or.inr rfl
  · exact Or.inr rfl

/-- The same for the History Store's path. -/
theorem onStorePath_cases (s : State) (f : StoreNotice → Option (State → State)) :
    (∃ x rest act, s.engine.pass = none ∧ s.paths.storeToEngine = x :: rest ∧ f x = some act ∧
      onStorePath s f = engineEvent { s with paths := { s.paths with storeToEngine := rest } } act) ∨
    onStorePath s f = s := by
  unfold onStorePath
  split
  · rename_i x rest h1 h2
    split
    · rename_i act h3; exact Or.inl ⟨x, rest, act, h1, h2, h3, rfl⟩
    · exact Or.inr rfl
  · exact Or.inr rfl

/-- The same for the Egress Queue's path. -/
theorem onQueuePath_cases (s : State) (f : QueueNotice → Option (State → State)) :
    (∃ x rest act, s.engine.pass = none ∧ s.paths.queueToEngine = x :: rest ∧ f x = some act ∧
      onQueuePath s f = engineEvent { s with paths := { s.paths with queueToEngine := rest } } act) ∨
    onQueuePath s f = s := by
  unfold onQueuePath
  split
  · rename_i x rest h1 h2
    split
    · rename_i act h3; exact Or.inl ⟨x, rest, act, h1, h2, h3, rfl⟩
    · exact Or.inr rfl
  · exact Or.inr rfl

/-- The same for the Agent's direct notices. -/
theorem onAgentPath_cases (s : State) (f : EngineNotice → Option (State → State)) :
    (∃ x rest act, s.engine.pass = none ∧ s.paths.agentToEngine = x :: rest ∧ f x = some act ∧
      onAgentPath s f = engineEvent { s with paths := { s.paths with agentToEngine := rest } } act) ∨
    onAgentPath s f = s := by
  unfold onAgentPath
  split
  · rename_i x rest h1 h2
    split
    · rename_i act h3; exact Or.inl ⟨x, rest, act, h1, h2, h3, rfl⟩
    · exact Or.inr rfl
  · exact Or.inr rfl

/-! ## Lists -/

/-- R105: the element `firstLeast` picks is in the list, and none has a smaller key. -/
theorem firstLeast_spec {α : Type} (key : α → Nat) : ∀ (l : List α) (x : α), firstLeast key l = some x →
    x ∈ l ∧ ∀ y ∈ l, key x ≤ key y := by
  intro l
  induction l with
  | nil => intro x h; cases h
  | cons a l ih =>
    intro x h
    simp only [firstLeast] at h
    split at h
    · rename_i hn
      cases h
      cases l with
      | nil => simp
      | cons b l =>
        simp only [firstLeast] at hn
        split at hn
        · cases hn
        · split at hn <;> cases hn
    · rename_i y hy
      obtain ⟨hm, hle⟩ := ih y hy
      split at h
      · cases h
        rename_i hk
        exact ⟨by simp, fun z hz => by
          rcases List.mem_cons.1 hz with rfl | hz
          · exact Nat.le_refl _
          · exact Nat.le_trans hk (hle z hz)⟩
      · cases h
        rename_i hk
        exact ⟨List.mem_cons_of_mem _ hm, fun z hz => by
          rcases List.mem_cons.1 hz with rfl | hz
          · omega
          · exact hle z hz⟩

end Sys2Proof.Machine
end

