-- ==== Sys2Proof/Laws/Rounds.lean ====
section
/-! SUPPORT. Round arithmetic: what the forward distance and the words of R1 and R2 come to on numbers, and that the
schedule's closed form is the repeated adding of R69. -/

namespace Sys2Proof.Machine

/-- The forward distance on numbers. -/
theorem distance_eq (a b : Round) : distance a b = (b.toNat + (2 ^ 32 - a.toNat)) % 2 ^ 32 := by
  unfold distance
  rw [BitVec.toNat_sub]
  congr 1
  omega

/-- A forward distance is below 2^32. -/
theorem distance_lt (a b : Round) : distance a b < 2 ^ 32 := (b - a).isLt

/-- A round is at distance 0 from itself. -/
@[simp] theorem distance_self (a : Round) : distance a a = 0 := by simp [distance]

/-- Only equal rounds are at distance 0. -/
theorem distance_eq_zero {a b : Round} : distance a b = 0 ↔ a = b := by
  constructor
  · intro h
    have ha := a.isLt
    have hb := b.isLt
    rw [distance_eq] at h
    exact BitVec.eq_of_toNat_eq (by omega)
  · rintro rfl
    simp

/-- The distance to the round `n` rounds after `a` is `n` modulo 2^32. -/
theorem distance_roundsAfter (a : Round) (n : Nat) : distance a (roundsAfter a n) = n % 2 ^ 32 := by
  simp [distance, roundsAfter]

/-- "After" is a distance from 1 to 2^31 - 1 (R1). -/
theorem isAfter_iff {a b : Round} : isAfter b a = true ↔ 1 ≤ distance a b ∧ distance a b ≤ 2147483647 := by
  unfold isAfter Config.halfCircle
  rw [Bool.and_eq_true, decide_eq_true_iff, decide_eq_true_iff]

/-- "At or after" is a distance of at most 2^31 - 1 (R1). -/
theorem atOrAfter_iff {a b : Round} : atOrAfter b a = true ↔ distance a b ≤ 2147483647 := by
  unfold atOrAfter
  rw [Bool.or_eq_true, decide_eq_true_iff, isAfter_iff]
  omega

/-- Distances add up when the sum stays below 2^32. -/
theorem distance_add {a b c : Round} (h : distance a b + distance b c < 2 ^ 32) :
    distance a c = distance a b + distance b c := by
  have ha := a.isLt
  have hb := b.isLt
  have hc := c.isLt
  rw [distance_eq, distance_eq] at h
  rw [distance_eq, distance_eq, distance_eq]
  omega

/-- A round between two others splits their distance. -/
theorem distance_sub {a b c : Round} (h : distance a b ≤ distance a c) : distance b c = distance a c - distance a b := by
  have ha := a.isLt
  have hb := b.isLt
  have hc := c.isLt
  rw [distance_eq, distance_eq] at h
  rw [distance_eq, distance_eq, distance_eq]
  omega

/-- The two distances of a pair of different rounds add up to 2^32. -/
theorem distance_back {a b : Round} (h : a ≠ b) : distance b a = 2 ^ 32 - distance a b := by
  have h0 : distance a b ≠ 0 := fun e => h (distance_eq_zero.1 e)
  have ha := a.isLt
  have hb := b.isLt
  rw [distance_eq] at h0
  rw [distance_eq, distance_eq]
  omega

/-- R69 as it is written: the interval is added to the compare while it is not after `r`; `fuel` bounds the additions.
The result is the number of additions and the compare. -/
def addWhileNotAfter (i : Nat) (r : Round) : Nat → Round → Nat × Round
  | 0, c => (0, c)
  | fuel + 1, c =>
    if isAfter c r then (0, c)
    else
      let p := addWhileNotAfter i r fuel (roundsAfter c i)
      (p.1 + 1, p.2)

/-- One addition of an interval of at most 2^31 - 1 moves the compare forward or past `r`. -/
theorem add_step {i : Nat} {c r : Round} (hi : 0 < i) (hi2 : i ≤ 2147483647) (h : isAfter c r = false) :
    (i ≤ distance c r → distance (roundsAfter c i) r = distance c r - i ∧ isAfter (roundsAfter c i) r = false) ∧
    (distance c r < i → isAfter (roundsAfter c i) r = true) := by
  have hd : distance c (roundsAfter c i) = i := by rw [distance_roundsAfter]; omega
  have hna : ¬ (1 ≤ distance r c ∧ distance r c ≤ 2147483647) := by
    rw [← isAfter_iff]; simp [h]
  have hcr : distance c r ≤ 2147483648 := by
    by_cases e : c = r
    · subst e; simp
    · have := distance_back (Ne.symm e)
      have := distance_lt c r
      have := distance_lt r c
      omega
  constructor
  · intro hle
    have h1 : distance (roundsAfter c i) r = distance c r - i := by
      have := distance_sub (a := c) (b := roundsAfter c i) (c := r) (by omega)
      omega
    refine ⟨h1, ?_⟩
    rw [Bool.eq_false_iff]
    intro hh
    rw [isAfter_iff] at hh
    by_cases e : roundsAfter c i = r
    · rw [e] at hh; simp at hh
    · have := distance_back (Ne.symm e)
      have := distance_lt r (roundsAfter c i)
      omega
  · intro hlt
    rw [isAfter_iff]
    have := distance_sub (a := c) (b := r) (c := roundsAfter c i) (by omega)
    omega

/-- R69: with enough turns, the repeated adding makes `scheduleAdditions` additions, and ends `scheduleAdditions`
intervals further on. -/
theorem scheduleAdditions_spec (i : Nat) (r : Round) (hi : 0 < i) (hi2 : i ≤ 2147483647) :
    ∀ (fuel : Nat) (c : Round), scheduleAdditions c r i ≤ fuel →
      addWhileNotAfter i r fuel c = (scheduleAdditions c r i, roundsAfter c (scheduleAdditions c r i * i)) := by
  intro fuel
  induction fuel with
  | zero =>
    intro c h
    have h0 : scheduleAdditions c r i = 0 := by omega
    simp [addWhileNotAfter, h0, roundsAfter]
  | succ n ih =>
    intro c h
    by_cases ha : isAfter c r = true
    · simp [addWhileNotAfter, scheduleAdditions, ha, roundsAfter]
    · have ha' : isAfter c r = false := by simpa using ha
      have hs : scheduleAdditions c r i = distance c r / i + 1 := by simp [scheduleAdditions, ha']
      have hstep := add_step (c := c) (r := r) hi hi2 ha'
      have hnext : scheduleAdditions (roundsAfter c i) r i = distance c r / i := by
        by_cases hle : i ≤ distance c r
        · obtain ⟨h1, h2⟩ := hstep.1 hle
          simp only [scheduleAdditions, h2, h1]
          have := Nat.sub_mul_div (distance c r) i 1
          have hpos : 0 < distance c r / i := Nat.div_pos hle hi
          simp only [mul_one] at this
          simp only [Bool.false_eq_true, if_false]
          omega
        · have h1 := hstep.2 (by omega)
          have h2 : distance c r / i = 0 := Nat.div_eq_of_lt (by omega)
          simp [scheduleAdditions, h1, h2]
      have := ih (roundsAfter c i) (by omega)
      have hb : roundsAfter (roundsAfter c i) (distance c r / i * i) = roundsAfter c ((distance c r / i + 1) * i) := by
        simp only [roundsAfter, BitVec.add_assoc, ← BitVec.ofNat_add]
        congr 2
        rw [Nat.add_mul, Nat.one_mul, Nat.add_comm]
      simp [addWhileNotAfter, ha', this, hnext, hs, hb]

end Sys2Proof.Machine
end

