-- ==== Sys2Proof/Laws/Service.lean ====
section
/-! SUPPORT. The service pass: a principle that proves what every pass keeps from what its moves keep, what a pass
leaves alone, and that the fuel of a pass always suffices. -/

namespace Sys2Proof.Machine

/-- The first CLOSING window. -/
def firstClosing (s : State) : Option Window := s.engine.windows.find? fun w => decide (w.state = .closing)

/-- The moves of a service pass (R101): each keeps `P`. The move that removes a window, settles the skips or emits an
empty round goes on; the others end the pass or wait for the Egress Queue. -/
structure PassMoves (P : State → Prop) : Prop where
  tail : ∀ s p w, P s → s.engine.pass = some p → firstClosing s = some w → w.headSent = true →
    P (engineOffer s (.tail (tailOf w)))
  remove : ∀ s p w, P s → s.engine.pass = some p → firstClosing s = some w → w.headSent = false →
    P (discardWindows s fun x => decide (x = w))
  settle : ∀ s p, P s → s.engine.pass = some p → p.stage = .settling → firstClosing s = none → s.engine.balance = 0 →
    P (setStage (settleSkips s) p .serving)
  done : ∀ s p, P s → s.engine.pass = some p → firstClosing s = none → P (endPass s)
  head : ∀ s p w, P s → s.engine.pass = some p → p.stage = .serving → firstClosing s = none → pickReady s = some w →
    roundReady s w = none → P (engineOffer s (.head (headOf w)))
  empty : ∀ s p w, P s → s.engine.pass = some p → p.stage = .serving → firstClosing s = none → pickReady s = some w →
    roundReady s w = some [] → P (updateWindow s w.id (emitted 0))
  group : ∀ s p w x xs, P s → s.engine.pass = some p → p.stage = .serving → firstClosing s = none →
    pickReady s = some w → roundReady s w = some (x :: xs) → P (engineOffer s (.group (x :: xs)))

/-- What every move keeps, a pass keeps. -/
theorem runPass_keeps {P : State → Prop} (m : PassMoves P) : ∀ (fuel : Nat) (s : State), P s → P (runPass fuel s) := by
  intro fuel
  induction fuel with
  | zero => intro s h; exact h
  | succ n ih =>
    intro s h
    unfold runPass
    split
    · exact h
    · rename_i p hp
      split
      · rename_i w hw
        split
        · rename_i hh; exact m.tail s p w h hp hw hh
        · rename_i hh; exact ih _ (m.remove s p w h hp hw (by simpa using hh))
      · rename_i hw
        split
        · rename_i hst
          split
          · rename_i hb; exact ih _ (m.settle s p h hp hst hw hb)
          · exact m.done s p h hp hw
        · rename_i hst
          split
          · exact m.done s p h hp hw
          · rename_i w hr
            split
            · rename_i hg; exact m.head s p w h hp hst hw hr hg
            · rename_i hg; exact ih _ (m.empty s p w h hp hst hw hr hg)
            · rename_i g hne hg
              cases g with
              | nil => exact absurd rfl hne
              | cons x xs => exact m.group s p w x xs h hp hst hw hr hg

/-- What a pass may change: the window list, the pass, *windows discarded*, *windows truncated*, the engine's offers, and
an acknowledgement that is due, which its end sends. `t` agrees with `s` on everything else. -/
def PassLeaves (s t : State) : Prop :=
  t.clock = s.clock ∧ t.asm = s.asm ∧ t.store = s.store ∧ t.evaluator = s.evaluator ∧ t.table = s.table ∧
  t.lines = s.lines ∧ t.egress = s.egress ∧ t.agent = s.agent ∧ t.frontOut = s.frontOut ∧ t.pending = s.pending ∧
  t.engine = { s.engine with windows := t.engine.windows, pass := t.engine.pass, ackDue := t.engine.ackDue } ∧
  t.counters = { s.counters with
    windowsDiscarded := t.counters.windowsDiscarded, windowsTruncated := t.counters.windowsTruncated } ∧
  t.paths = { s.paths with engineOffers := t.paths.engineOffers, engineAcks := t.paths.engineAcks }

/-- The moves leave the rest of the state alone. -/
theorem passLeaves_moves (s₀ : State) : PassMoves (PassLeaves s₀) where
  tail := by
    rintro s p w ⟨h1, h2, h3, h4, h5, h6, h7, h8, h9, h10, h11, h12, h13⟩ _ _ _
    refine ⟨h1, h2, h3, h4, h5, h6, h7, h8, h9, h10, h11, h12, ?_⟩
    rw [engineOffer_paths, h13]
  remove := by
    rintro s p w ⟨h1, h2, h3, h4, h5, h6, h7, h8, h9, h10, h11, h12, h13⟩ _ _ _
    refine ⟨h1, h2, h3, h4, h5, h6, h7, h8, h9, h10, ?_, ?_, h13⟩
    · rw [discardWindows_engine, h11]
    · unfold discardWindows; dsimp only; rw [h12]
  settle := by
    rintro s p ⟨h1, h2, h3, h4, h5, h6, h7, h8, h9, h10, h11, h12, h13⟩ _ _ _ _
    refine ⟨h1, h2, h3, h4, h5, h6, h7, h8, h9, h10, ?_, ?_, h13⟩
    · unfold setStage settleSkips mapWindows countTruncated; dsimp only; rw [h11]
    · unfold setStage settleSkips mapWindows countTruncated; dsimp only; rw [h12]
  done := by
    rintro s p ⟨h1, h2, h3, h4, h5, h6, h7, h8, h9, h10, h11, h12, h13⟩ _ _
    refine ⟨h1, h2, h3, h4, h5, h6, h7, h8, h9, h10, ?_, h12, ?_⟩
    · rw [endPass_engine, h11]
    · rw [endPass_paths, h13]
  head := by
    rintro s p w ⟨h1, h2, h3, h4, h5, h6, h7, h8, h9, h10, h11, h12, h13⟩ _ _ _ _ _
    refine ⟨h1, h2, h3, h4, h5, h6, h7, h8, h9, h10, h11, h12, ?_⟩
    rw [engineOffer_paths, h13]
  empty := by
    rintro s p w ⟨h1, h2, h3, h4, h5, h6, h7, h8, h9, h10, h11, h12, h13⟩ _ _ _ _ _
    refine ⟨h1, h2, h3, h4, h5, h6, h7, h8, h9, h10, ?_, h12, h13⟩
    unfold updateWindow mapWindows; dsimp only; rw [h11]
  group := by
    rintro s p w x xs ⟨h1, h2, h3, h4, h5, h6, h7, h8, h9, h10, h11, h12, h13⟩ _ _ _ _ _
    refine ⟨h1, h2, h3, h4, h5, h6, h7, h8, h9, h10, h11, h12, ?_⟩
    rw [engineOffer_paths, h13]

/-- What a service pass leaves alone. -/
theorem resumePass_leaves (s : State) : PassLeaves s (resumePass s) :=
  runPass_keeps (passLeaves_moves s) _ _ ⟨rfl, rfl, rfl, rfl, rfl, rfl, rfl, rfl, rfl, rfl, rfl, rfl, rfl⟩

/-! ## The fuel suffices -/

/-- Past its last round a window has nothing left. -/
theorem remaining_past (w : Window) (h : w.cursor = roundsAfter w.last 1) : remaining w = 0 := by
  have hd : ¬ hasRounds w = true := by
    unfold hasRounds
    rw [atOrAfter_iff, h, distance_eq]
    simp only [roundsAfter, BitVec.toNat_add, BitVec.toNat_ofNat]
    omega
  simp [remaining, hd]

/-- Moving the cursor `k` rounds on, within what is left, leaves `k` rounds fewer. -/
theorem remaining_advance (w w' : Window) (k : Nat) (hl : w'.last = w.last)
    (hc : w'.cursor = roundsAfter w.cursor k) (hk : k ≤ remaining w) : remaining w' = remaining w - k := by
  by_cases hr : hasRounds w = true
  · have hrw : remaining w = distance w.cursor w.last + 1 := by simp [remaining, hr]
    have hd : distance w.cursor w.last ≤ 2147483647 := by unfold hasRounds at hr; rwa [atOrAfter_iff] at hr
    by_cases he : k = distance w.cursor w.last + 1
    · have hx : w'.cursor = roundsAfter w'.last 1 := by
        have hcl := w.cursor.isLt
        have hll := w.last.isLt
        rw [hc, hl]
        rw [distance_eq] at he hd
        refine BitVec.eq_of_toNat_eq ?_
        simp only [roundsAfter, BitVec.toNat_add, BitVec.toNat_ofNat]
        omega
      rw [remaining_past w' hx]
      omega
    · have hk' : k ≤ distance w.cursor w.last := by omega
      have h1 : distance w'.cursor w'.last = distance w.cursor w.last - k := by
        have hadv : distance w.cursor w'.cursor = k := by rw [hc, distance_roundsAfter]; omega
        rw [hl, distance_sub (a := w.cursor) (by omega), hadv]
      have h2 : hasRounds w' = true := by unfold hasRounds; rw [atOrAfter_iff]; omega
      rw [hrw, remaining, if_pos h2]
      omega
  · have h0 : remaining w = 0 := by simp [remaining, hr]
    have hk0 : k = 0 := by omega
    have hc' : w'.cursor = w.cursor := by rw [hc, hk0]; simp [roundsAfter]
    have : hasRounds w' = hasRounds w := by unfold hasRounds; rw [hl, hc']
    simp [remaining, this, hr]

/-- R103: the store's oldest round lies between the cursor of a behind window and L, when it is at or before L. -/
theorem behind_oldest {o n c l : Round} (h1 : ¬ distance o c ≤ distance o n) (h2 : ¬ isAfter c n = true)
    (h3 : distance c l ≤ 2147483647) (h4 : distance o l ≤ 2147483647) :
    distance c o + distance o l = distance c l := by
  have ho := o.isLt
  have hn := n.isLt
  have hc := c.isLt
  have hl := l.isLt
  rw [isAfter_iff] at h2
  simp only [distance_eq] at h1 h2 h3 h4 ⊢
  omega

/-- A change of state does not change what is left to a window. -/
theorem remaining_congr {w w' : Window} (hc : w'.cursor = w.cursor) (hl : w'.last = w.last) :
    remaining w' = remaining w := by
  unfold remaining hasRounds
  rw [hc, hl]

/-- R109 leaves what is left to a window. -/
@[simp] theorem remaining_closeIfDone (w : Window) : remaining (closeIfDone w) = remaining w := by
  unfold closeIfDone
  split <;> exact remaining_congr rfl rfl

/-- R109 keeps a window's id. -/
@[simp] theorem closeIfDone_id (w : Window) : (closeIfDone w).id = w.id := by unfold closeIfDone; split <;> rfl

/-- R109: `closeIfDone` leaves a window as it is, or makes a DRAINING one whose cursor is after L CLOSING. -/
theorem closeIfDone_cases (w : Window) :
    closeIfDone w = w ∨ (w.state = .draining ∧ isAfter w.cursor w.last = true ∧
      closeIfDone w = { w with state := .closing }) := by
  unfold closeIfDone
  split
  · rename_i h; exact .inr ⟨h.1, h.2, rfl⟩
  · exact .inl rfl

/-- R97: all that a new last round `l` does to a window: L, the rounds lost, STREAM_LOST, and DRAINING or CLOSING. -/
theorem shortenWindow_cases (l : Round) (w : Window) :
    ∃ st, (st = .closing ↔ isAfter w.cursor l = true) ∧ (st = .draining ↔ isAfter w.cursor l = false) ∧
      shortenWindow l w = { w with
        last := l, lost := w.lost - passedBeyond w l, state := st
        flags := { w.flags with streamLost := true } } := by
  cases h : isAfter w.cursor l
  · exact ⟨.draining, by simp, by simp, by simp [shortenWindow, drain, closeIfDone, h]⟩
  · exact ⟨.closing, by simp, by simp, by simp [shortenWindow, drain, closeIfDone, h]⟩

/-- R103 keeps a window's id. -/
@[simp] theorem settleBehind_id (h : Store) (w : Window) : (settleBehind h w).id = w.id := by
  unfold settleBehind
  split
  · rfl
  · split <;> rfl

/-- R101, step 2, keeps a window's id. -/
@[simp] theorem settleSkip_id (h : Store) (w : Window) : (settleSkip h w).id = w.id := by
  unfold settleSkip
  split
  · simp
  · split
    · simp [skipGap]
    · rfl

/-- R103 leaves a window no more rounds than it had. -/
theorem remaining_settleBehind (h : Store) (w : Window) (hb : isBehind h w = true) :
    remaining (settleBehind h w) ≤ remaining w := by
  simp only [isBehind, Bool.and_eq_true, decide_eq_true_eq] at hb
  obtain ⟨⟨-, hr⟩, hc⟩ := hb
  have hrw : remaining w = distance w.cursor w.last + 1 := by simp [remaining, hr]
  have hd : distance w.cursor w.last ≤ 2147483647 := by unfold hasRounds at hr; rwa [atOrAfter_iff] at hr
  unfold settleBehind
  split
  · exact Nat.le_refl _
  · rename_i o ho
    split
    · rename_i hlo
      rw [atOrAfter_iff] at hlo
      have hx : remaining (markTruncated { w with lost := w.lost + distance w.cursor o, cursor := o }) =
          distance o w.last + 1 := by
        have : hasRounds (markTruncated { w with lost := w.lost + distance w.cursor o, cursor := o }) = true := by
          unfold hasRounds; rw [atOrAfter_iff]; exact hlo
        rw [remaining, if_pos this]; rfl
      unfold classify at hc
      rw [ho] at hc
      cases hn : newestRound h with
      | none => rw [hn] at hc; simp at hc
      | some n =>
        rw [hn] at hc
        dsimp only at hc
        split at hc
        · cases hc
        · split at hc
          · cases hc
          · split at hc
            · cases hc
            · rename_i h1 h2
              have := behind_oldest h1 h2 hd hlo
              omega
    · rw [remaining_past _ rfl]
      exact Nat.zero_le _

/-- R104 leaves a window no more rounds than it had. -/
theorem remaining_skipGap (h : Store) (w : Window) : remaining (skipGap h w) ≤ remaining w := by
  unfold skipGap
  refine Nat.le_trans (Nat.le_of_eq (remaining_advance w _ (gapLength h w) ?_ ?_ (Nat.min_le_right _ _)))
    (Nat.sub_le _ _) <;> rfl

/-- The settlement of skips leaves a window no more rounds than it had. -/
theorem remaining_settleSkip (h : Store) (w : Window) : remaining (settleSkip h w) ≤ remaining w := by
  unfold settleSkip
  split
  · rename_i hb; rw [remaining_closeIfDone]; exact remaining_settleBehind h w hb
  · split
    · rw [remaining_closeIfDone]; exact remaining_skipGap h w
    · exact Nat.le_refl _

/-- What a pass has left to do at most: a bound on its turns. -/
def turnsLeft (s : State) : Nat :=
  s.engine.windows.length + (s.engine.windows.map remaining).sum +
    match s.engine.pass with
    | some p => if p.stage = .settling then 1 else 0
    | none => 0

/-- The ids of a window list. -/
def windowIds (ws : List Window) : List WindowId := ws.map Window.id

/-- A sum does not grow when no term does. -/
theorem sum_map_le (ws : List Window) (f : Window → Window) (h : ∀ w ∈ ws, remaining (f w) ≤ remaining w) :
    ((ws.map f).map remaining).sum ≤ (ws.map remaining).sum := by
  induction ws with
  | nil => simp
  | cons w ws ih =>
    simp only [List.map_cons, List.sum_cons]
    have := h w (by simp)
    have := ih fun x hx => h x (by simp [hx])
    omega

/-- A sum falls when no term grows and one falls. -/
theorem sum_map_lt (ws : List Window) (f : Window → Window) (h : ∀ w ∈ ws, remaining (f w) ≤ remaining w)
    (x : Window) (hx : x ∈ ws) (hlt : remaining (f x) < remaining x) :
    ((ws.map f).map remaining).sum < (ws.map remaining).sum := by
  induction ws with
  | nil => simp at hx
  | cons w ws ih =>
    simp only [List.map_cons, List.sum_cons]
    have h1 := h w (by simp)
    have h2 := sum_map_le ws f fun y hy => h y (by simp [hy])
    rcases List.mem_cons.1 hx with rfl | hx
    · omega
    · have := ih (fun y hy => h y (by simp [hy])) hx
      omega

/-- A filtered list's sum is no larger. -/
theorem sum_filter_le (ws : List Window) (p : Window → Bool) :
    ((ws.filter p).map remaining).sum ≤ (ws.map remaining).sum := by
  induction ws with
  | nil => simp
  | cons w ws ih =>
    by_cases hp : p w = true
    · simp only [List.filter_cons, hp, if_true, List.map_cons, List.sum_cons]; omega
    · simp only [List.filter_cons, hp, List.map_cons, List.sum_cons]
      simp only [Bool.false_eq_true, if_false]
      omega

/-- Two windows of a list with distinct ids and the same id are one. -/
theorem eq_of_id {ws : List Window} (h : (windowIds ws).Nodup) {x y : Window} (hx : x ∈ ws) (hy : y ∈ ws)
    (hid : x.id = y.id) : x = y := by
  induction ws with
  | nil => simp at hx
  | cons w ws ih =>
    simp only [windowIds, List.map_cons, List.nodup_cons, List.mem_map, not_exists, not_and] at h
    rcases List.mem_cons.1 hx with h1 | h1 <;> rcases List.mem_cons.1 hy with h2 | h2
    · rw [h1, h2]
    · exact absurd (by rw [← hid, h1]) (h.1 y h2)
    · exact absurd (by rw [hid, h2]) (h.1 x h1)
    · exact ih h.2 h1 h2

/-- The window a pass serves stands in the list and is ready. -/
theorem pickReady_mem {s : State} {w : Window} (h : pickReady s = some w) :
    w ∈ s.engine.windows ∧ isReady s w = true := by
  have hfl : ∀ (k : Window → Nat) (l : List Window), firstLeast k l = some w → w ∈ l := by
    intro k l
    induction l with
    | nil => intro h; cases h
    | cons x xs ih =>
      intro h
      simp only [firstLeast] at h
      split at h
      · cases h; simp
      · rename_i y hy
        split at h
        · cases h; simp
        · cases h; exact List.mem_cons_of_mem _ (ih hy)
  unfold pickReady at h
  dsimp only at h
  split at h
  · simpa [List.mem_filter] using hfl _ _ h
  · simpa [List.mem_filter] using List.mem_of_mem_head? h

/-- A round-ready window has rounds left and is in progress. -/
theorem roundReady_has {s : State} {w : Window} {g : List WinSample} (h : roundReady s w = some g) :
    hasRounds w = true ∧ inProgress w = true ∧ w.headSent = true := by
  unfold roundReady at h
  split at h
  · rename_i hc
    simp only [Bool.and_eq_true] at hc
    exact ⟨hc.1.1.2, hc.1.1.1.1, hc.1.1.1.2⟩
  · cases h

/-- A pass has stopped: it is over, or it waits with one offer made. -/
def PassStopped (s t : State) : Prop :=
  t.engine.pass = none ∨ ∃ x, t.paths.engineOffers = s.paths.engineOffers ++ [x]

/-- R101: with distinct window ids, a pass with more turns than `turnsLeft` stops by itself. -/
theorem runPass_stops : ∀ (fuel : Nat) (s : State), (windowIds s.engine.windows).Nodup → turnsLeft s < fuel →
    PassStopped s (runPass fuel s) := by
  intro fuel
  induction fuel with
  | zero => intro s _ h; omega
  | succ n ih =>
    intro s hid hf
    unfold runPass
    split
    · rename_i hp; exact Or.inl hp
    · rename_i p hp
      split
      · rename_i w hw
        have hmem : w ∈ s.engine.windows := List.mem_of_find?_eq_some hw
        split
        · exact Or.inr ⟨_, rfl⟩
        · have hs : PassStopped (discardWindows s fun x => decide (x = w)) (runPass n (discardWindows s fun x => decide (x = w))) := by
            refine ih _ ?_ ?_
            · exact hid.sublist (List.Sublist.map _ (List.filter_sublist ..))
            · have h1 : (s.engine.windows.filter fun x => !decide (x = w)).length < s.engine.windows.length := by
                refine List.length_filter_lt_length_iff_exists.2 ⟨w, hmem, by simp⟩
              have h2 := sum_filter_le s.engine.windows fun x => !decide (x = w)
              simp only [turnsLeft, discardWindows_engine] at hf ⊢
              omega
          exact hs
      · split
        · rename_i hst
          split
          · have hs : PassStopped (setStage (settleSkips s) p .serving) (runPass n (setStage (settleSkips s) p .serving)) := by
              refine ih _ ?_ ?_
              · have : windowIds (setStage (settleSkips s) p .serving).engine.windows = windowIds s.engine.windows := by
                  simp only [setStage, settleSkips, windowIds, mapWindows, countTruncated, List.map_map]
                  exact List.map_congr_left fun w _ => settleSkip_id s.store w
                rw [this]; exact hid
              · have h2 := sum_map_le s.engine.windows (settleSkip s.store) fun w _ => remaining_settleSkip s.store w
                have e : (setStage (settleSkips s) p .serving).engine.windows = s.engine.windows.map (settleSkip s.store) := rfl
                have e2 : (setStage (settleSkips s) p .serving).engine.pass = some { p with stage := .serving } := rfl
                simp only [turnsLeft, hp, hst, if_true] at hf
                simp only [turnsLeft, e, e2, List.length_map, reduceCtorEq, if_false]
                omega
            exact hs
          · exact Or.inl rfl
        · rename_i hst
          split
          · exact Or.inl rfl
          · rename_i w hr
            split
            · exact Or.inr ⟨_, rfl⟩
            · rename_i hg
              have hmem := (pickReady_mem hr).1
              have hhas := (roundReady_has hg).1
              have hs : PassStopped (updateWindow s w.id (emitted 0)) (runPass n (updateWindow s w.id (emitted 0))) := by
                refine ih _ ?_ ?_
                · have : windowIds (updateWindow s w.id (emitted 0)).engine.windows = windowIds s.engine.windows := by
                    simp only [updateWindow, windowIds, mapWindows, List.map_map]
                    refine List.map_congr_left fun x _ => ?_
                    simp only [Function.comp, emitted, closeIfDone]
                    split_ifs <;> rfl
                  rw [this]; exact hid
                · have hrem : ∀ x, 0 < remaining x → remaining (emitted 0 x) = remaining x - 1 := by
                    intro x hx
                    unfold emitted
                    rw [remaining_closeIfDone]
                    exact remaining_advance x _ 1 rfl rfl hx
                  have hpos : 0 < remaining w := by simp [remaining, hhas]
                  have h2 := sum_map_lt s.engine.windows (fun x => if x.id = w.id then emitted 0 x else x)
                    (by
                      intro x hx
                      split_ifs with he
                      · have hxw := eq_of_id hid hx hmem he
                        rw [hxw, hrem w hpos]; omega
                      · exact Nat.le_refl _) w hmem (by rw [if_pos rfl, hrem w hpos]; omega)
                  have e : (updateWindow s w.id (emitted 0)).engine.windows =
                    s.engine.windows.map (fun x => if x.id = w.id then emitted 0 x else x) := rfl
                  have e2 : (updateWindow s w.id (emitted 0)).engine.pass = s.engine.pass := rfl
                  simp only [turnsLeft] at hf ⊢
                  rw [e, e2, List.length_map]
                  omega
              exact hs
            · exact Or.inr ⟨_, rfl⟩

/-- R101: with distinct window ids, every service pass runs to its end or to its next offer. -/
theorem resumePass_stops (s : State) (h : (windowIds s.engine.windows).Nodup) : PassStopped s (resumePass s) := by
  refine runPass_stops _ _ h ?_
  unfold turnsLeft passFuel
  split
  · split <;> omega
  · omega

end Sys2Proof.Machine
end

