-- ==== Sys2Proof/WellFormed.lean ====
section
/-! DEFINITION. When a command is well formed: its operands are ones that the outside world can give. Every field of
a cell fits its layout by its type, so two checks are left: that the time before the command fits the 64-bit timer
(R194), and that a discarded cell is one that the lane discards (R188). -/

namespace Sys2Proof.Machine

/-- The time before a command, as far as the command states one. -/
def elapsedBefore (i : Instr) : Nat :=
  match i with
  | .laneCellDiscard dt _ _ => dt
  | .roundCell dt _ _ => dt
  | .sampleCell dt _ _ _ => dt
  | .feReplyRelay dt _ => dt
  | .requestArrival dt _ => dt
  | _ => 0

/-- R194: the local timer is 64 bits wide. -/
def timeFits (i : Instr) : Bool := decide (elapsedBefore i < 2 ^ 64)

/-- R188: LANE_CELL_DISCARD is for a cell that the lane does not accept. -/
def discardIsDue (i : Instr) : Bool :=
  match i with
  | .laneCellDiscard _ lane cell => !laneAccepts lane cell
  | _ => true

/-- The command is well formed. -/
def wellFormed (i : Instr) : Bool := timeFits i && discardIsDue i

end Sys2Proof.Machine
end

