-- ==== Sys2Proof/Tests/Slice0.lean ====
section
/-! SUPPORT. Tests of the model. Expected results come from the manual's worked sequences and tables (named at each
theorem), or from a hand computation from its rules. A theorem `witness_<Name>` shows a state and operands that meet
the hypotheses of the statement `Obligations.<Name>`, at the bounds of their ranges. The
theorems are checked one after another (`Elab.async false`), so that many small ones do not ask for as many threads. -/

set_option Elab.async false

namespace Sys2Proof.Tests

open Sys2Proof Sys2Proof.Machine Sys2Proof.Machine.Stated

/-! ## Building states -/

/-- What `f` sees of the state that `c` leaves from `s`; none where `c` stops. -/
def seen {α : Type} (c : Instr) (s : State) (f : State → α) : Option α :=
  match exec c s with
  | .next t => some (f t)
  | .fault _ => none
  | .refused _ => none

/-- `c` leaves a state from `s` of which `p` holds. -/
def leaves (c : Instr) (s : State) (p : State → Prop) [DecidablePred p] : Bool :=
  match exec c s with
  | .next t => decide (p t)
  | .fault _ => false
  | .refused _ => false

/-- The reset state with other paths. -/
def withPaths (p : Paths) : State := { State.reset with paths := p }

/-- A record with values on some channels. -/
def recordOf (n : Round) (values : List (Fin 16 × Sample)) (gap : Nat) (spanStart : Bool) : Record :=
  { round := n, epoch := 0, values := Vector.ofFn fun i => (values.find? fun p => decide (p.1 = i)).map Prod.snd,
    complete := true, gapBefore := gap, spanStart := spanStart }

/-- Records of consecutive rounds, channels 0 to 3 present with value 7. -/
def recordsFrom (n : Round) (k : Nat) : List Record :=
  (List.range k).map fun j => recordOf (n + BitVec.ofNat 32 j) [(0, 7), (1, 7), (2, 7), (3, 7)] 0 false

/-- A stream RUNNING at `last`, channels 0 to 3 GATE, the silence timer running to 20 ms (Section 1.10). -/
def running (last : Round) (backward : Nat) (a : Option InAssembly) : State :=
  { State.reset with asm := { resetAssembler with
      stream := .running last, backward := backward, assembly := a, silenceExpiry := some 20000
      modes := Vector.ofFn fun i => if i.val < 4 then .gate else .off } }

/-- Round 1,001 in assembly with channels 0 to 3 declared. -/
def in1001 (received : ChannelMask) : InAssembly :=
  { round := 1001, declared := 0x000F#16, received := received, epoch := 0, gapBefore := 0, spanStart := false,
    kept := Vector.replicate 16 none }

/-- A stream LOST after `last`. -/
def lostAt (last : Round) : State :=
  { State.reset with asm := { resetAssembler with stream := .lost last } }

/-- A request with the arguments that matter. -/
def ask (dest kind : Byte) (value : Word32) : Request :=
  { dest := dest, tag := 0x2A#8, kind := kind, area := 0, table := 0, index := 0, field := 0, value := value, rest := 0 }

/-- The head request `q` before a FREE Agent, with the session in state `x`. -/
def serving (x : Session) (q : Request) : State :=
  { State.reset with agent := { resetAgent with session := x, fifo := [q] } }

/-- The result, value and aux of the last offer of the Agent, where it is a reply. -/
def lastReply (t : State) : Option (Result × Word32 × Word32) :=
  match t.paths.agentOffers.getLast? with
  | some (.reply c) => some (c.result, c.value, c.aux)
  | _ => none

/-! ## Ill-formed commands (WellFormed.lean) -/

/-- ROUND 1,001 for channels 0 to 3, byte by byte from Table 10-1, its check computed by hand from R187. -/
def cellRound : RawCell := 0x01000003E9000F0000000000000000000000000000001177#192

theorem test_timer_operand_of_2_64_is_ill_formed :
    wellFormed (.requestArrival (2 ^ 64) (ask 0 1 0)) = false ∧ wellFormed (.roundCell (2 ^ 64) 0 0) = false ∧
    wellFormed (.sampleCell (2 ^ 64) 0 0 0) = false ∧ wellFormed (.feReplyRelay (2 ^ 64) 0) = false := by decide

theorem test_timer_operand_below_2_64_is_well_formed :
    wellFormed (.requestArrival (2 ^ 64 - 1) (ask 0 1 0)) = true := by decide

theorem test_discard_of_a_valid_cell_is_ill_formed :
    wellFormed (.laneCellDiscard 0 .streamIn (some cellRound)) = false := by decide +kernel

theorem test_discard_on_the_wrong_lane_is_well_formed :
    wellFormed (.laneCellDiscard 0 .controlIn (some cellRound)) = true := by decide +kernel

/-! ## Cells (Table 10-1; the checks are computed by hand from R187) -/

/-- The published check value of the CRC that R187 describes, over the nine digits. -/
theorem test_crc16_check_value :
    crc16 [0x31, 0x32, 0x33, 0x34, 0x35, 0x36, 0x37, 0x38, 0x39] = 0x29B1#16 := by decide +kernel

theorem test_round_cell_decodes : laneCommand 0 .streamIn (some cellRound) = .roundCell 0 1001 0x000F := by
  decide +kernel

theorem test_sample_cell_decodes :
    laneCommand 3 .streamIn (some 0x0200E900041A00000000000000000000000000000000854C#192) =
      .sampleCell 3 0 0xE9 1050 := by decide +kernel

theorem test_fe_reply_cell_decodes :
    laneCommand 0 .streamIn (some 0x030102030405060708090A0B0C0D0E0F101112130000690F#192) =
      .feReplyRelay 0 0x0102030405060708090A0B0C0D0E0F10111213#152 := by decide +kernel

theorem test_request_cell_decodes :
    laneCommand 0 .controlIn (some 0x10002A01000000000000138800000000000000000000E57F#192) =
      .requestArrival 0 (ask 0x00 0x01 5000) := by decide +kernel

theorem test_live_cell_bytes :
    egressCell { seq := 5000, cell := .live { channel := 3, round := 1001, value := 0xFFFFFE } } =
      0x20138803000003E9FFFFFE0000000000000000000000A5BB#192 := by decide +kernel

theorem test_win_tail_cell_bytes :
    egressCell { seq := 0, cell := .window (.tail
      { id := 17, last := 1003, emitted := 5, cells := 9, lost := 1
        flags := { shortPre := true, extended := false, truncated := false, gap := true, streamLost := false,
                   aborted := false } }) } = 0x2300000011000003EB000500000009000109000000009F28#192 := by
  decide +kernel

theorem test_event_cell_bytes :
    egressCell { seq := 1, cell := .event {
        code := .triggerFired, round := some 100, a := 0, b := 1, forced := false } } =
      0x24000101000000640000000000000001010000000000689A#192 := by decide +kernel

theorem test_reply_cell_bytes :
    egressCell { seq := 2, cell := .reply { tag := 0x2A, kind := 0x01, result := .ok, value := 5000, aux := 0 } } =
      0x2500022A0100000013880000000000000000000000000DE2#192 := by decide +kernel

theorem test_fe_command_cell_bytes :
    feCommandCell (commandBytes (ask 0x01 0x00 5000)) = 0x112A00000000000000138800000000000000000000005E32#192 := by
  decide +kernel

/-- The cells that the discard clauses of the decoding statement are about: a failed check, and the kinds beside the
valid ones. -/
theorem witness_ReceivedCellsDecode :
    passesCheck (cellRound ^^^ 1#192) = false ∧
    headByte (cellHead 0x0400000000000000000000000000000000000000000038F5#192) 0 ∉ [0x01#8, 0x02#8, 0x03#8] ∧
    passesCheck 0x0400000000000000000000000000000000000000000038F5#192 = true ∧
    headByte (cellHead 0x110000000000000000000000000000000000000000004F2A#192) 0 ≠ 0x10#8 ∧
    passesCheck 0x110000000000000000000000000000000000000000004F2A#192 = true := by decide +kernel

/-! ## Rounds (Table 1-1) -/

theorem test_distances_of_table_1_1 :
    distance 1000 1001 = 1 ∧ distance 1000 1000 = 0 ∧ distance 0xFFFFFFFE 1 = 3 ∧ distance 1004 40 = 4294966332 ∧
    distance 0 0x80000000 = 2147483648 := by decide

theorem test_relations_of_table_1_1 :
    isAfter 1001 1000 = true ∧ atOrAfter 1000 1000 = true ∧ isAfter 1000 1000 = false ∧
    isAfter 1 0xFFFFFFFE = true ∧ isAfter 40 1004 = false ∧ isAfter 1004 40 = true ∧
    isAfter 0x80000000 0 = false ∧ isAfter 0 0x80000000 = false ∧ later 0 0x80000000 = 0 ∧
    earlier 0 0x80000000 = 0x80000000 := by decide

/-! ## Power, clock and lanes -/

theorem test_idle_step_passes_one_microsecond :
    (match step State.reset with
      | .next t => t.clock.localTimer
      | .fault _ => 0
      | .refused _ => 0) = 1 := by decide +kernel

theorem test_time_stops_at_the_expiry : (elapse (running 5000 0 none) 99999).clock.localTimer = 20000 := by decide

/-- Time up to the expiry, past it, and from a timer that stands past it. -/
theorem witness_LocalTimerStopsAtExpiry :
    State.reset.pending = [] ∧ ({ State.reset with clock := { localTimer := 0, refclk := false } } : State).clock.refclk =
      false ∧ (running 5000 0 none).clock.refclk = true ∧
    (∀ e ∈ runningExpiries (running 5000 0 none), (running 5000 0 none).clock.localTimer + 20000 ≤ e) ∧
    20000 ∈ runningExpiries (running 5000 0 none) ∧ (∀ x ∈ runningExpiries (running 5000 0 none), 20000 ≤ x) ∧
    (running 5000 0 none).clock.localTimer ≤ 20000 ∧ 20000 < (running 5000 0 none).clock.localTimer + 20001 ∧
    20000 ∈ runningExpiries { running 5000 0 none with clock := { localTimer := 20001, refclk := true } } := by decide

theorem witness_CommandsChangeOnlyTheirBlock :
    exec .refclkLoss State.reset = .next { State.reset with clock := { localTimer := 0, refclk := false } } := rfl

/-- A cell not received whole, one whose check fails, and one of a kind beside the valid ones, on each lane. -/
theorem witness_LanesDiscardAndStop :
    State.reset.clock.refclk = true ∧
    crc16 (headBytes (cellHead (cellRound ^^^ 1#192))) ≠ (cellRound ^^^ 1#192).extractLsb' 0 16 ∧
    headByte (cellHead 0x0400000000000000000000000000000000000000000038F5#192) 0 ∉ [0x01#8, 0x02#8, 0x03#8] ∧
    headByte (cellHead cellRound) 0 ≠ 0x10#8 ∧
    ({ State.reset with clock := { localTimer := 0, refclk := false } } : State).clock.refclk = false := by
  decide +kernel

theorem test_bad_cells_are_counted :
    seen (.laneCellDiscard 5 .streamIn none) State.reset (fun t => (t.counters.streamBadCells, t.clock.localTimer)) =
      some (1, 5) ∧
    seen (.laneCellDiscard 0 .controlIn (some cellRound)) State.reset (fun t => t.counters.controlBadCells) = some 1 := by
  decide +kernel

/-! ## The Round Assembler (Sections 1.10 and 1.11) -/

/-- Table 1-7, step 4: a channel already received is malformed. -/
theorem test_second_sample_of_a_channel_is_malformed :
    seen (.sampleCell 0 1 0xE9 5) (running 1001 0 (some (in1001 0x0003))) (fun t => t.counters.malformedStreamCells) =
      some 1 := by decide +kernel

/-- Table 1-7, step 5: round 1,001 closes incomplete and round 1,004 opens with a gap of 2. -/
theorem test_gap_of_table_1_7 :
    seen (.roundCell 0 1004 0x000F) (running 1001 0 (some (in1001 0x0003)))
      (fun t => (t.counters.roundsAssembled, t.counters.absentSamples, t.counters.roundsLost,
        t.asm.assembly.map InAssembly.gapBefore, t.paths.asmOffers)) =
    some (1, 2, 2, some 2,
      [.event { code := .roundGap, round := some 1004, a := 1002, b := 2, forced := false }]) := by decide +kernel

/-- Table 1-7, step 6: the fourth sample completes the round. -/
theorem test_last_sample_completes_the_round :
    seen (.sampleCell 0 3 0xE9 5) (running 1001 0 (some (in1001 0x0007)))
      (fun t => (t.asm.assembly, t.paths.asmToStore.map (fun x => match x with
        | .record r => some r.complete
        | _ => none))) = some (none, [some true]) := by decide +kernel

/-- Table 1-7, steps 7 and 10: round 40 is refused; the third backward round is a restart. -/
theorem test_refusal_and_restart_of_table_1_7 :
    seen (.roundCell 0 40 0x000F) (running 1004 0 none)
      (fun t => (t.asm.stream, t.asm.backward, t.counters.backwardRoundsRefused)) = some (.running 1004, 1, 1) ∧
    seen (.roundCell 0 42 0x000F) (running 1004 2 none)
      (fun t => (t.asm.stream, t.counters.restarts, t.paths.asmToStore, t.paths.asmOffers)) =
    some (.running 42, 1, [.restart],
      [.event { code := .streamRestart, round := some 42, a := 42, b := 1004, forced := false }]) := by decide +kernel

/-- Table 1-9: the silence expiry at 20 ms, and the resume at round 5,003. -/
theorem test_silence_and_resume_of_table_1_9 :
    leaves .silenceExpiry (running 5000 0 none) (fun t => t.clock.localTimer = 20000 ∧ t.asm.stream = .lost 5000 ∧
      t.asm.silenceExpiry = none ∧ t.paths.asmToEvaluator = [.lost] ∧ t.paths.asmOffers =
        [.event { code := .streamLost, round := some 5000, a := 5000, b := 0, forced := false }]) = true ∧
    leaves (.roundCell 31000 5003 0x000F) (lostAt 5000) (fun t => t.asm.silenceExpiry = some 51000 ∧
      t.counters.roundsLost = 2 ∧ t.paths.asmOffers =
        [.event { code := .streamResumed, round := some 5003, a := 5003, b := 2, forced := false }]) = true := by
  decide +kernel

/-- A PASS channel's sample offers a LIVE cell; an FE_REPLY is relayed in DOWN. -/
theorem test_live_and_relay_offers :
    seen (.sampleCell 0 0 0xE9 9)
      { running 1001 0 (some (in1001 0)) with asm := { (running 1001 0 (some (in1001 0))).asm with
          modes := Vector.replicate 16 .pass } } (fun t => t.paths.asmOffers) =
      some [.live { channel := 0, round := 1001, value := 9 }] ∧
    seen (.feReplyRelay 0 77#152) State.reset (fun t => t.paths.asmOffers) = some [.relay 77#152] := by decide +kernel

/-- The mark waits for the round in assembly and follows its record (R20). -/
theorem test_mark_waits_for_the_round :
    seen .commitStart { running 1001 0 (some (in1001 0)) with paths := { emptyPaths with agentToAsm := [.commit 1] } }
      (fun t => (t.asm.pendingMark, t.asm.epoch)) = some (some 1, 0) ∧
    seen .commitStart { running 1001 0 none with paths := { emptyPaths with agentToAsm := [.commit 1] } }
      (fun t => (t.asm.epoch, t.paths.asmToStore, t.paths.asmReports)) = some (1, [.mark 1], [some 1001]) := by
  decide +kernel

theorem witness_SupersessionClosesRoundFirst :
    (running 1001 0 (some (in1001 0))).clock.refclk = true ∧
    (running 1001 0 (some (in1001 0))).asm.assembly = some (in1001 0) := by decide +kernel

/-- Each clause at its bounds: distance 1; 2 and 2^31 - 1; 1 and 2^31 - 1 in LOST. -/
theorem witness_ForwardRoundAccepted :
    State.reset.clock.refclk = true ∧ State.reset.asm.assembly = none ∧ State.reset.asm.stream = .down ∧
    (running 9 0 none).clock.refclk = true ∧ (running 9 0 none).asm.assembly = none ∧
    (running 9 0 none).asm.stream = .running 9 ∧ distance 9 10 = 1 ∧ distance 9 11 = 2 ∧
    distance 9 0x80000008 = 2147483647 ∧ (lostAt 9).clock.refclk = true ∧ (lostAt 9).asm.assembly = none ∧
    (lostAt 9).asm.stream = .lost 9 := by decide +kernel

/-- Distances 0 and 2^31, with a backward count of 0, of 1 and of 2, and in LOST. -/
theorem witness_BackwardRoundRefusedOrRestarts :
    distance 9 9 = 0 ∧ distance 9 0x80000009 = 2147483648 ∧
    (∀ k ∈ [0, 1, 2], (running 9 k none).clock.refclk = true ∧ (running 9 k none).asm.assembly = none ∧
      (running 9 k none).asm.stream = .running 9 ∧ (running 9 k none).asm.backward = k) ∧
    (lostAt 9).asm.assembly = none ∧ (lostAt 9).asm.stream = .lost 9 := by decide +kernel

/-- A stray; the four malformed cells; a sample taken on channel 0 and on channel 15. -/
theorem witness_SampleTakenOrDiscarded :
    State.reset.clock.refclk = true ∧ State.reset.asm.assembly = none ∧
    (running 1001 0 (some (in1001 1))).clock.refclk = true ∧
    (running 1001 0 (some (in1001 1))).asm.assembly = some (in1001 1) ∧
    15 < (16#8).toNat ∧ (in1001 1).declared.getLsbD 4 = false ∧ (in1001 1).received.getLsbD 0 = true ∧
    0xEA#8 ≠ (in1001 1).round.extractLsb' 0 8 ∧ (0#8).toNat = (0 : Fin 16).val ∧
    (in1001 0).declared.getLsbD 0 = true ∧ (in1001 0).received.getLsbD 0 = false ∧
    0xE9#8 = (in1001 0).round.extractLsb' 0 8 ∧ (15#8).toNat = (15 : Fin 16).val ∧
    ({ in1001 0 with declared := 0x8000#16 } : InAssembly).declared.getLsbD 15 = true := by decide +kernel

/-- The expiry ahead and first; reached; not running; and behind an earlier lease expiry. -/
theorem witness_SilenceLosesStream :
    (running 9 0 none).asm.silenceExpiry = some 20000 ∧ (running 9 0 none).asm.stream = .running 9 ∧
    (running 9 0 none).clock.refclk = true ∧ (∀ x ∈ runningExpiries (running 9 0 none), 20000 ≤ x) ∧
    State.reset.asm.silenceExpiry = none ∧
    (∃ x ∈ runningExpiries { running 9 0 none with agent := { resetAgent with leaseExpiry := some 19999 } },
      x < 20000) := by decide +kernel

theorem witness_AssemblerTakesStarts :
    (withPaths { emptyPaths with agentToAsm := [.commit 1] }).paths.agentToAsm = .commit 1 :: [] ∧
    (withPaths { emptyPaths with agentToAsm := [.commit 1] }).asm.assembly = none ∧
    (running 1001 0 (some (in1001 0))).asm.assembly ≠ none ∧
    (withPaths { emptyPaths with agentToAsm := [.nodeReset] }).paths.agentToAsm = .nodeReset :: [] := by decide +kernel

/-! ## The History Store (Sections 2.5 and 2.6) -/

/-- A store with the given records, and one item on its input path. -/
def storing (ring : List Record) (span : Option Round) (x : PathItem) : State :=
  { State.reset with store := { ring := ring, spanStart := span }, paths := { emptyPaths with asmToStore := [x] } }

/-- Table 2-5, step 1: a full ring loses its oldest record. -/
theorem test_full_ring_overwrites_the_oldest :
    seen .recordAppend (storing (recordsFrom 1000 512) (some 600) (.record (recordOf 1515 [] 3 false)))
      (fun t => (t.store.ring.length, oldestRound t.store, newestRound t.store, t.store.spanStart,
        t.paths.storeToEngine)) =
    some (512, some 1001, some 1515, some 600, [.overwritten 1000, .stored 1515]) := by decide +kernel

/-- Table 2-7: six records leave by reach. -/
theorem test_reach_removal_of_table_2_7 :
    seen .recordAppend (storing (recordsFrom 100 10) (some 100) (.record (recordOf 2147483753 [] 2147483643 false)))
      (fun t => (t.store.ring.map Record.round, t.store.spanStart, t.paths.storeToEngine)) =
    some ([106, 107, 108, 109, 2147483753], some 100, [.overwritten 100, .overwritten 101, .overwritten 102,
      .overwritten 103, .overwritten 104, .overwritten 105, .stored 2147483753]) := by decide +kernel

/-- Table 2-5, steps 2, 5 and 6. -/
theorem test_store_notices_of_table_2_5 :
    seen .historyLostNotice (storing (recordsFrom 1001 2) (some 600) .lost) (fun t => t.paths.storeToEngine) =
      some [.lost 1002] ∧
    seen .historyRestartNotice (storing (recordsFrom 1001 2) (some 600) .restart)
      (fun t => (t.store.ring, t.store.spanStart, t.paths.storeToEngine)) = some ([], none, [.flushedRestart]) ∧
    seen .recordAppend (storing [] none (.record (recordOf 77 [] 0 true)))
      (fun t => (t.store.spanStart, t.paths.storeToEngine)) = some (some 77, [.stored 77]) := by decide +kernel

/-- The ring of Tables 2-4 and 2-6, after step 3 of Table 2-5, with fewer records: 1,200, 1,511, 1,515 and 1,530. -/
def heldStore : Store :=
  { ring := recordsFrom 1200 1 ++ recordsFrom 1511 1 ++ recordsFrom 1515 1 ++ recordsFrom 1530 1, spanStart := some 600 }

/-- Table 2-6. -/
theorem test_history_replies_of_table_2_6 :
    (let r := fun (ch : Byte) (n : Word32) => answerHistory heldStore { ask 0 4 n with area := 4, index := ch }
     r 2 1200 = { result := .ok, value := 7, aux := 0 } ∧ r 7 1200 = { result := .notHeld, value := 0, aux := 0 } ∧
     r 2 1520 = { result := .notHeld, value := 0, aux := 1 } ∧ r 2 1001 = { result := .notHeld, value := 0, aux := 3 } ∧
     r 2 1531 = { result := .notHeld, value := 0, aux := 2 } ∧ r 16 1200 = { result := .badArg, value := 0, aux := 0 }) := by
  decide +kernel

/-- A state that meets the stream law with a record in the ring, one on the path and one in assembly. -/
def inStream : State :=
  { running 1002 0 (some { in1001 0 with round := 1002, gapBefore := 0 }) with
    store := { ring := recordsFrom 1000 1, spanStart := some 1000 }
    paths := { emptyPaths with asmToStore := [.record (recordOf 1001 [] 0 false)] }
    pending := [.recordAppend] }

theorem inStream_streamLaw : StreamLaw inStream := by
  refine ⟨by decide +kernel, by unfold RingOrdered; decide +kernel, by decide +kernel, ?_, ?_, nofun,
    by decide +kernel⟩
  · refine ⟨Or.inr ⟨1000, by decide +kernel, by decide +kernel⟩, trivial⟩
  · exact ⟨rfl, Or.inr ⟨1001, by decide +kernel, by decide +kernel⟩⟩

theorem witness_StreamLawKept : StreamLaw inStream ∧ ∃ t, step inStream = .next t ∧ t.store.ring.length = 2 :=
  ⟨inStream_streamLaw, _, rfl, by decide +kernel⟩

/-- A span start; a record after every record; a record that the whole ring but one falls out of reach of. -/
theorem witness_AppendRemovesThenStores :
    (storing [] none (.record (recordOf 77 [] 0 true))).paths.asmToStore = .record (recordOf 77 [] 0 true) :: [] ∧
    (recordOf 77 [] 0 true).spanStart = true ∧ (recordOf 1515 [] 3 false).spanStart = false := by decide +kernel

theorem witness_StoreTakesNotices :
    (∀ x ∈ [PathItem.restart, .nodeReset, .mark 3, .lost], (storing [] none x).paths.asmToStore = x :: []) ∧
    (storing (recordsFrom 1001 2) (some 600) .lost).store.ring = 
      recordsFrom 1001 1 ++ [recordOf 1002 [(0, 7), (1, 7), (2, 7), (3, 7)] 0 false] ∧
    (storing [] none .lost).store.ring = [] := by decide +kernel

/-- A ring that meets the stream law, with rounds of each class about its ends. -/
theorem witness_HistoryReadClassifiesRound :
    StreamLaw inStream ∧ StreamLaw State.reset ∧ State.reset.store.ring = [] ∧
    inStream.store.ring.head? = some (recordOf 1000 [(0, 7), (1, 7), (2, 7), (3, 7)] 0 false) ∧
    inStream.store.ring.getLast? = some (recordOf 1000 [(0, 7), (1, 7), (2, 7), (3, 7)] 0 false) ∧
    classify inStream.store 1000 = .held ∧ classify inStream.store 1001 = .ahead ∧
    classify inStream.store 999 = .behind ∧ classify inStream.store 0x800003E8 = .behind ∧
    classify heldStore 1529 = .gap ∧ classify heldStore 1531 = .ahead ∧ classify heldStore 1199 = .behind ∧
    15 < (16#8).toNat ∧ (15#8).toNat = (15 : Fin 16).val :=
  ⟨inStream_streamLaw, ⟨by decide, List.Pairwise.nil, by decide, trivial, rfl, rfl, by decide⟩, by decide +kernel⟩

/-! ## The Condition Evaluator (Sections 3.8 to 3.10) -/

/-- The entry of Section 3.8. -/
def aboveEntry : ChannelEntry :=
  { mode := .gate, condition := .above, levelA := 1000, levelB := 0, hysteresis := 200, qualify := 3 }

/-- The entry of Section 3.9. -/
def riseEntry : ChannelEntry :=
  { mode := .pass, condition := .riseStep, levelA := 500, levelB := 0, hysteresis := 100, qualify := 1 }

/-- Channel 5 with one entry and unit, and one item on the Evaluator's path. -/
def evaluating5 (e : ChannelEntry) (u : CondUnit) (x : PathItem) : State :=
  { State.reset with
    evaluator := { entries := resetEvaluator.entries.set 5 e, units := resetEvaluator.units.set 5 u, epoch := 0 }
    paths := { emptyPaths with asmToEvaluator := [x] } }

/-- What channel 5 and the verdict become when a record is evaluated. -/
def evaluated5 (e : ChannelEntry) (u : CondUnit) (r : Record) : Option (UnitState × List VerdictItem) :=
  seen .recordEvaluation (evaluating5 e u (.record r)) fun t =>
    ((t.evaluator.units.get 5).state, t.paths.evaluatorToTable)

/-- A verdict on the path. -/
def verdictItem (r : Round) (asserted active : ChannelMask) (released : List (Fin 16 × Nat)) : List VerdictItem :=
  [.verdict { round := r, asserted := asserted, active := active, released := released }]

/-- Table 3-8, round 205: the third true sample asserts. -/
theorem test_third_true_sample_asserts :
    evaluated5 aboveEntry { resetUnit with state := .qualifying 2, previous := some 1010 }
      (recordOf 205 [(5, 1300)] 0 false) = some (.active, verdictItem 205 0x0020 0x0020 []) := by decide +kernel

/-- Table 3-8, rounds 209 and 210: a gap leaves an ACTIVE unit; the release has duration 5. -/
theorem test_band_holds_then_release_reports_duration :
    evaluated5 aboveEntry { resetUnit with state := .active, lastAssert := some 205 } (recordOf 209 [(5, 900)] 2 false) =
      some (.active, verdictItem 209 0 0x0020 []) ∧
    evaluated5 aboveEntry { resetUnit with state := .active, lastAssert := some 205 } (recordOf 210 [(5, 790)] 0 false) =
      some (.idle, verdictItem 210 0 0 [(5, 5)]) := by decide +kernel

/-- Table 3-9, records 301 and 308: a step of 600 asserts; a step across a gap is not evaluable. -/
theorem test_step_unit_of_table_3_9 :
    evaluated5 riseEntry { resetUnit with previous := some 0 } (recordOf 301 [(5, 600)] 0 false) =
      some (.active, verdictItem 301 0x0020 0x0020 []) ∧
    evaluated5 riseEntry { resetUnit with state := .active, previous := some 2100, lastAssert := some 305 }
      (recordOf 308 [(5, 2200)] 2 false) = some (.active, verdictItem 308 0 0x0020 []) := by decide +kernel

/-- The state with channel 5 staged as `e`. -/
def staged5 (s : State) (e : ChannelEntry) : State :=
  { s with agent := { s.agent with staging := { defaultBank with channels := defaultBank.channels.set 5 e } } }

/-- Table 3-11: a changed entry resets its unit, an unchanged one keeps it. -/
theorem test_mark_resets_changed_units :
    leaves .evaluatorEpochMark
      (staged5 (evaluating5 aboveEntry { resetUnit with state := .active, lastAssert := some 498 } (.mark 1))
        { aboveEntry with hysteresis := 300 })
      (fun t => t.evaluator.units.get 5 = resetUnit ∧ t.evaluator.epoch = 1) = true ∧
    leaves .evaluatorEpochMark
      (staged5 (evaluating5 riseEntry { resetUnit with previous := some 3000 } (.mark 1)) riseEntry)
      (fun t => (t.evaluator.units.get 5).previous = some 3000) = true := by decide +kernel

/-- An ABOVE unit whose release bound lies below the sample range, and a BELOW unit whose bound lies above it. -/
theorem witness_ConditionTestsFollowTables :
    aboveEntry.condition = .above ∧
    ({ aboveEntry with levelA := -8388608, hysteresis := 1 } : ChannelEntry).levelA.toInt - 1 < -8388608 ∧
    8388607 < ({ aboveEntry with condition := .below, levelA := 8388607 } : ChannelEntry).levelA.toInt + 1 ∧
    aboveEntry.condition ∈ [ConditionKind.above, .below, .outside, .inside] ∧ riseEntry.condition = .riseStep := by
  decide

theorem witness_RecordEvaluatedIntoVerdict :
    (evaluating5 aboveEntry resetUnit (.record (recordOf 205 [(5, 1300)] 0 false))).paths.asmToEvaluator =
      .record (recordOf 205 [(5, 1300)] 0 false) :: [] := by decide +kernel

theorem witness_EvaluatorTakesNotices :
    ∀ x ∈ [PathItem.lost, .restart, .nodeReset, .mark 3],
      (evaluating5 aboveEntry resetUnit x).paths.asmToEvaluator = x :: [] := by decide +kernel

/-- A QUALIFYING unit under its entry, with a record to evaluate. -/
def qualifying5 : State :=
  let s := evaluating5 aboveEntry { resetUnit with state := .qualifying 2, previous := some 1010 }
    (.record (recordOf 205 [(5, 1300)] 0 false))
  { s with pending := [.recordEvaluation] }

theorem witness_UnitLawKept : UnitLaw qualifying5 ∧ ∃ t, step qualifying5 = .next t := by
  refine ⟨⟨fun i => ⟨?_, ?_, ?_, ?_⟩, ?_, ?_, ?_⟩, _, rfl⟩
  · revert i; decide +kernel
  · intro k hk
    by_cases h : i = 5
    · subst h
      have : (qualifying5.evaluator.units.get 5).state = .qualifying 2 := by decide +kernel
      rw [this] at hk; cases hk; decide +kernel
    · have : ∀ j : Fin 16, j ≠ 5 → (qualifying5.evaluator.units.get j).state = .idle := by decide +kernel
      rw [this i h] at hk; cases hk
  · revert i; decide +kernel
  · revert i; decide +kernel
  · unfold QualifyInRange; decide +kernel
  · unfold QualifyInRange; decide +kernel
  · unfold QualifyInRange; decide +kernel

/-! ## The Trigger Table (Sections 4.7 and 4.8) -/

/-- Entry 0 of Section 4.7. -/
def entry0 : TriggerEntry :=
  { defaultTrigger with
    sources := 0x0008, policy := .repeating, holdoff := 4, profile := some 0, line := some 2, lineAction := .pulse
    pulseLength := 10, event := true, chainMask := 0x02 }

/-- Entry 1 of Section 4.7. -/
def entry1 : TriggerEntry :=
  { defaultTrigger with
    combine := .after, sources := 0x0010, refEntry := 0, within := 5, profile := some 1, event := true }

/-- Entry 2 of Section 4.8. -/
def entry2 : TriggerEntry :=
  { defaultTrigger with
    combine := .schedule, compare := 1000, interval := 100, policy := .repeating, event := true }

/-- A live state. -/
def liveAs (st : EntryState) (count : Nat) (last : Option Round) (compare : Round) : EntryLive :=
  { state := st, fireCount := count, lastFire := last, compare := compare, forceMark := false }

/-- The table of Sections 4.7 and 4.8 with the given live states and previous verdict round, and one item on its path. -/
def tabled (l0 l1 l2 : EntryLive) (p : Option Round) (x : VerdictItem) : State :=
  { State.reset with
    table := { resetTable with
      entries := ((resetTable.entries.set 0 entry0).set 1 entry1).set 2 entry2
      live := ((resetTable.live.set 0 l0).set 1 l1).set 2 l2
      previousVerdict := p }
    paths := { emptyPaths with evaluatorToTable := [x] } }

/-- A verdict in which the given channels assert and are active. -/
def assertedAt (r : Round) (m : ChannelMask) : VerdictItem :=
  .verdict { round := r, asserted := m, active := m, released := [] }

/-- Table 4-6, verdict 100: entry 0 fires, entry 1 is chain-armed and not evaluated. -/
theorem test_verdict_100_of_table_4_6 :
    leaves .verdict (tabled (liveAs .armed 0 none 0) resetEntry resetEntry none (assertedAt 100 0x0018)) (fun t =>
      t.table.live.get 0 = liveAs (.holdoff 100) 1 (some 100) 0 ∧ t.table.live.get 1 = liveAs .armed 0 none 0 ∧
      t.paths.tableToEngine = [.request { entry := 0, round := 100, profile := 0 }] ∧
      t.paths.tableToLines =
        [.step { round := 100, actions := [{ line := 2, action := .pulse, length := 10 }] }] ∧
      t.paths.tableOffers =
        [{ code := .triggerFired, round := some 100, a := 0, b := 1, forced := false }]) = true := by decide +kernel

/-- Table 4-6, verdicts 101 and 104: entry 1 fires on its reference; a distance equal to the holdoff keeps HOLDOFF. -/
theorem test_after_and_holdoff_of_table_4_6 :
    leaves .verdict (tabled (liveAs (.holdoff 100) 1 (some 100) 0) (liveAs .armed 0 none 0) resetEntry (some 100)
        (assertedAt 101 0x0018)) (fun t =>
      (t.table.live.get 0).state = .holdoff 100 ∧ t.table.live.get 1 = liveAs .fired 1 (some 101) 0) = true ∧
    leaves .verdict (tabled (liveAs (.holdoff 100) 1 (some 100) 0) resetEntry resetEntry (some 102)
        (assertedAt 104 0x0008)) (fun t => (t.table.live.get 0).state = .holdoff 100) = true ∧
    leaves .verdict (tabled (liveAs (.holdoff 100) 1 (some 100) 0) resetEntry resetEntry (some 104)
        (assertedAt 105 0x0008)) (fun t => t.table.live.get 0 = liveAs (.holdoff 105) 2 (some 105) 0) = true := by
  decide +kernel

/-- Table 4-7, verdict 1,340: three additions, two periods missed, the slip before the fire. -/
theorem test_schedule_slip_of_table_4_7 :
    leaves .verdict (tabled resetEntry resetEntry (liveAs .armed 1 (some 1000) 1100) (some 1000) (assertedAt 1340 0))
      (fun t => t.table.live.get 2 = liveAs .armed 2 (some 1340) 1400 ∧ t.paths.tableOffers =
        [{ code := .scheduleSlip, round := some 1340, a := 2, b := 2, forced := false },
         { code := .triggerFired, round := some 1340, a := 2, b := 2, forced := false }]) = true := by decide +kernel

/-- Section 4.8, last paragraph: a forced fire at 1,501 adds the interval five times. -/
theorem test_forced_schedule_fire :
    leaves .verdict (tabled resetEntry resetEntry { liveAs .armed 1 (some 1000) 1100 with forceMark := true } (some 1500)
        (assertedAt 1501 0))
      (fun t => t.table.live.get 2 = liveAs .armed 2 (some 1501) 1600 ∧ t.paths.tableOffers.head? =
        some { code := .scheduleSlip, round := some 1501, a := 2, b := 4, forced := true }) = true := by decide +kernel

/-- A direct notice on the Agent's path to a table with entry 0 in state `l`. -/
def noticed (held : Bool) (l : EntryLive) (x : TriggerNotice) : State :=
  { State.reset with
    table := { resetTable with held := held, live := resetTable.live.set 0 l }
    paths := { emptyPaths with agentToTable := [x] } }

/-- R74, R75: ARM takes DISARMED to ARMED; while held it is refused. -/
theorem test_arm_and_its_refusal :
    leaves .armNotice (noticed false resetEntry (.arm 1)) (fun t =>
      (t.table.live.get 0).state = .armed ∧ t.paths.tableAcks = [{ refused := false, round := none }]) = true ∧
    leaves .armNotice (noticed true resetEntry (.arm 1)) (fun t =>
      (t.table.live.get 0).state = .disarmed ∧ t.paths.tableAcks = [{ refused := true, round := none }]) = true := by
  decide +kernel

/-- R76, R77, R78: DISARM clears a force mark, FIRE sets one, a safe state holds and disarms. -/
theorem test_disarm_fire_and_safe_state :
    leaves .disarmNotice (noticed false { liveAs .fired 1 none 0 with forceMark := true } (.disarm 1))
      (fun t => t.table.live.get 0 = liveAs .disarmed 1 none 0) = true ∧
    leaves .fireNotice (noticed false resetEntry (.fire 0)) (fun t => (t.table.live.get 0).forceMark = true) = true ∧
    leaves .triggerSafeState (noticed false (liveAs .armed 3 none 0) .safeState)
      (fun t => t.table.held = true ∧ t.table.live.get 0 = liveAs .disarmed 3 none 0) = true := by decide +kernel

theorem witness_VerdictFiresEntries :
    (tabled resetEntry resetEntry resetEntry none
      (.verdict { round := 100, asserted := 0x18, active := 0x18, released := [] })).paths.evaluatorToTable =
      .verdict { round := 100, asserted := 0x18, active := 0x18, released := [] } :: [] := by decide +kernel

/-- An entry of each combine; the longest interval of R151. -/
theorem witness_CombineTestsAndSchedule :
    entry0.combine = .any ∧ ({ entry0 with combine := .all } : TriggerEntry).combine = .all ∧ entry1.combine = .after ∧
    ({ entry0 with combine := .width } : TriggerEntry).combine = .width ∧ entry2.combine = .schedule ∧
    1 ≤ entry2.interval ∧ ({ entry2 with interval := 2147483647 } : TriggerEntry).interval ≤ 2147483647 ∧
    ({ entry2 with interval := 0 } : TriggerEntry).interval = 0 ∧
    advances { entry2 with interval := 2147483647 } 0 2147483647 = 2 ∧ advances entry2 1100 1340 = 3 := by decide +kernel

theorem witness_TableTakesDirectNotices :
    ∀ x ∈ [TriggerNotice.arm 255, .disarm 0, .fire 7, .safeState, .close],
      (noticed true resetEntry x).paths.agentToTable = x :: [] ∧
      (noticed false resetEntry x).paths.agentToTable = x :: [] := by decide +kernel

/-- A session open, to a held table and to one that is not; and a DISARMED entry that a command arms. -/
theorem witness_SessionOpenReleasesTable :
    (noticed true resetEntry .sessionOpen).paths.agentToTable = .sessionOpen :: [] ∧
    (noticed false resetEntry .sessionOpen).table.held = false ∧
    (∃ t, exec .armNotice (noticed false resetEntry (.arm 1)) = .next t ∧
      ((noticed false resetEntry (.arm 1)).table.live.get 0).state = .disarmed ∧
      (t.table.live.get 0).state = .armed) := ⟨by decide +kernel, by decide +kernel, _, rfl, by decide +kernel⟩

theorem witness_TableTakesStreamNotices :
    ∀ x ∈ [VerdictItem.restart, .lost, .mark 65535, .nodeReset],
      (tabled (liveAs (.holdoff 100) 1 (some 100) 0) resetEntry resetEntry (some 7) x).paths.evaluatorToTable =
        x :: [] := by decide +kernel

/-- Held blocks, with an ARM waiting that will be refused. -/
def heldState : State :=
  { State.reset with
    table := { resetTable with held := true }, lines := { resetLines with held := true }
    engine := { resetEngine with held := true }
    paths := { emptyPaths with agentToTable := [.arm 255] }, pending := [.armNotice] }

theorem witness_HeldLawKept : HeldLaw heldState ∧ ∃ t, step heldState = .next t ∧ t.table.held = true := by
  refine ⟨⟨fun _ i => ⟨?_, ?_, ?_⟩, fun _ n => ?_, fun n _ => ?_, fun _ w hw => nomatch hw⟩, _, rfl, rfl⟩
  · revert i; decide +kernel
  · have : ∀ j : Fin 8, (heldState.table.live.get j).state = .disarmed := by decide +kernel
    intro b; rw [this i]; exact nofun
  · revert i; decide +kernel
  · revert n; decide +kernel
  · revert n; decide +kernel

/-! ## The Window Engine (Sections 5.9 and 5.10) -/

/-- Profile 0 of Section 5.9. -/
def profile0 : Profile := { pre := 4, post := 3, mask := 0x0003, overlap := .separate, limit := 100 }

/-- The records of Section 5.9: 998 to 1,001 and 1,003, round 999 without channel 1. -/
def records59 : List Record :=
  [recordOf 998 [(0, 7), (1, 7), (2, 7), (3, 7)] 0 true, recordOf 999 [(0, 7), (2, 7), (3, 7)] 0 false,
   recordOf 1000 [(0, 7), (1, 7), (2, 7), (3, 7)] 0 false, recordOf 1001 [(0, 7), (1, 7), (2, 7), (3, 7)] 0 false,
   recordOf 1003 [(0, 7), (1, 7), (2, 7), (3, 7)] 1 false]

/-- An engine over that store, with the given windows and paths. -/
def capturing (frontier : Option Round) (ws : List Window) (p : Paths) : State :=
  { State.reset with
    store := { ring := records59, spanStart := some 998 }
    engine := { resetEngine with
      windows := ws, nextId := 17, frontier := frontier, profiles := Vector.replicate 4 profile0 }
    paths := p }

/-- The open request of Section 5.9. -/
def request59 : OpenRequest := { entry := 0, round := 1000, profile := 0 }

/-- Window 17 of Table 5-8 with its cursor, counts and state. -/
def window17 (cursor : Round) (headSent : Bool) (st : WindowState) (emitted cells lost : Nat) (gap : Bool) : Window :=
  { id := 17, entry := 0, profile := 0, pre := 4, post := 3, mask := 0x0003, limit := 100, trigger := 1000, first := 998,
    last := 1003, cursor := cursor, headSent := headSent, state := st
    flags := { shortPre := true, extended := false, truncated := false, gap := gap, streamLost := false,
               aborted := false }
    emitted := emitted, cells := cells, lost := lost }

/-- Table 5-8, the open request: the window, its id, and the head offered first. -/
theorem test_open_request_of_table_5_8 :
    leaves .openRequest (capturing (some 1000) [] { emptyPaths with tableToEngine := [.request request59] }) (fun t =>
      t.engine.windows = [window17 998 false .opened 0 0 0 false] ∧ t.engine.nextId = 18 ∧
      t.counters.windowsOpened = 1 ∧ t.paths.engineOffers = [.head
        { id := 17, entry := 0, profile := 0, trigger := 1000, first := 998, last := 1003, mask := 3 }]) = true := by
  decide +kernel

/-- Table 5-8, stored 1,003: round 1,002 is skipped, and the group of 1,003 is offered. -/
theorem test_stored_1003_of_table_5_8 :
    leaves .storedNotice (capturing (some 1001) [window17 1002 true .opened 4 7 0 false]
        { emptyPaths with storeToEngine := [.stored 1003] }) (fun t =>
      t.engine.windows = [window17 1003 true .draining 4 7 1 true] ∧ t.paths.engineOffers = [.group
        [{ id := 17, round := 1003, channel := 0, value := 7, complete := true },
         { id := 17, round := 1003, channel := 1, value := 7, complete := true }]]) = true := by decide +kernel

/-- A pass that waits in its serving stage. -/
def waiting (s : State) : State :=
  { s with engine := { s.engine with pass := some { stage := .serving, before := viewOf s } } }

/-- Table 5-8: the group of 1,003 admitted; the window closes and its tail is offered with its counts. -/
theorem test_tail_of_table_5_8 :
    leaves .winSampleGroupOffer (waiting (capturing (some 1003) [window17 1003 true .draining 4 7 1 true]
        { emptyPaths with engineOffers := [.group
          [{ id := 17, round := 1003, channel := 0, value := 7, complete := true },
           { id := 17, round := 1003, channel := 1, value := 7, complete := true }]] })) (fun t =>
      t.engine.windows = [window17 1004 true .closing 5 9 1 true] ∧ t.egress.windows.length = 2 ∧
      t.paths.engineOffers = [.tail { id := 17, last := 1003, emitted := 5, cells := 9, lost := 1
                                      flags := (window17 0 true .closing 0 0 0 true).flags }]) = true := by decide +kernel

/-- Section 5.9, last paragraph: LOST at 1,001 closes the window at once. -/
theorem test_lost_closes_the_window :
    leaves .windowLostNotice (capturing (some 1001) [window17 1002 true .opened 4 7 0 false]
        { emptyPaths with storeToEngine := [.lost 1001] }) (fun t =>
      t.engine.lostFlag = true ∧ t.engine.windows.map Window.state = [.closing] ∧
      t.engine.windows.map Window.last = [1001] ∧ t.paths.engineOffers.length = 1) = true := by decide +kernel

/-- R88 and R110 by hand, with notes/assumptions/21: rounds 998 to 1,000 were emitted and a gap skip has passed 1,001
to 1,003; LOST 1,000 then leaves a window of three rounds with three emitted and none lost. With 998 and 999 emitted and
1,000 and 1,001 lost, one round is lost. -/
theorem test_lost_after_a_skip_past_its_round :
    leaves .windowLostNotice (capturing (some 1000) [window17 1004 true .opened 3 5 3 true]
        { emptyPaths with storeToEngine := [.lost 1000] }) (fun t => t.paths.engineOffers = [.tail
          { id := 17, last := 1000, emitted := 3, cells := 5, lost := 0
            flags := { shortPre := true, extended := false, truncated := false, gap := true, streamLost := true,
                       aborted := false } }]) = true ∧
    leaves .windowLostNotice (capturing (some 1000) [window17 1002 true .opened 2 4 2 true]
        { emptyPaths with storeToEngine := [.lost 1000] }) (fun t =>
          t.engine.windows.map (fun w => (w.last, w.emitted, w.lost)) = [(1000, 2, 1)]) = true := by decide +kernel

/-- Windows 40 and 41 of Section 5.10. -/
def windows510 : List Window :=
  [{ window17 1950 true .draining 50 100 0 false with id := 40, first := 1900, last := 2000 },
   { window17 2040 false .opened 0 0 0 false with id := 41, first := 2040, last := 2100 }]

/-- Table 5-9, the node-reset notice first: 51 rounds lost, ABORTED, window 41 removed; the tail is offered first. -/
theorem test_node_reset_first_of_table_5_9 :
    leaves .windowNodeResetNotice (capturing (some 2050) windows510 { emptyPaths with tableToEngine := [.nodeReset] })
      (fun t => t.engine.balance = 1 ∧ t.engine.windows.map Window.id = [40] ∧ t.engine.windows.map Window.lost = [51] ∧
        t.engine.windows.map (fun w => w.flags.aborted) = [true] ∧ t.counters.windowsDiscarded = 1 ∧
        t.counters.windowsTruncated = 0 ∧ t.paths.engineAcks = [] ∧ t.engine.ackDue = some .nodeReset ∧
        t.paths.engineOffers.length = 1) = true := by decide +kernel

/-- R101 with R115: the event of that notice ends once its tail has been taken, and then it is acknowledged. -/
theorem test_tail_then_acknowledgement :
    (let s := waiting (capturing none [{ window17 1950 true .closing 50 100 51 false with id := 40 }]
        { emptyPaths with engineOffers := [.tail (tailOf { window17 1950 true .closing 50 100 51 false with id := 40 })] })
     leaves .winTailOffer { s with engine := { s.engine with ackDue := some .nodeReset } } (fun t =>
      t.engine.pass = none ∧ t.engine.ackDue = none ∧ t.paths.engineAcks = [.nodeReset])) = true := by decide +kernel

/-- Table 5-10, the flushed notice first: TRUNCATED twice, the balance at -1. -/
theorem test_flushed_first_of_table_5_10 :
    leaves .flushedNodeResetNotice (capturing (some 2050) windows510 { emptyPaths with storeToEngine := [.flushedNodeReset] })
      (fun t => t.engine.balance = -1 ∧ t.engine.windows.map Window.lost = [51, 61] ∧
        t.counters.windowsTruncated = 2 ∧ t.engine.frontier = none) = true := by decide +kernel

/-- R111: the tail-transmitted notice releases the CLOSED window's slot alone. -/
theorem test_slot_release :
    leaves .tailTransmittedNotice (capturing none [window17 1004 true .closed 5 9 1 true]
        { emptyPaths with queueToEngine := [.tailTransmitted 17] }) (fun t => t.engine.windows = []) = true ∧
    leaves .tailTransmittedNotice (capturing none [window17 1002 true .opened 4 7 0 false]
        { emptyPaths with queueToEngine := [.tailTransmitted 17] }) (fun t => t.engine.windows.length = 1) = true := by
  decide +kernel

/-- An engine in EXTEND or another overlap with `n` closed windows, the open request waiting. -/
def opening (held : Bool) (o : Overlap) (ws : List Window) : State :=
  { State.reset with
    engine := { resetEngine with
      held := held, windows := ws, profiles := Vector.replicate 4 { profile0 with overlap := o } }
    paths := { emptyPaths with tableToEngine := [.request request59] } }

/-- `n` CLOSED windows with ids from 0. -/
def closedWindows (n : Nat) : List Window :=
  (List.range n).map fun i => { window17 1004 true .closed 5 9 1 true with id := BitVec.ofNat 16 i }

/-- R91: an extension up to the cap F + X - 1 = 1,097, and no further. -/
theorem test_extend_up_to_its_cap :
    leaves .openRequest { opening false .extend [window17 1000 true .opened 2 3 0 false] with
        paths := { emptyPaths with tableToEngine := [.request { request59 with round := 1096 }] } }
      (fun t => t.engine.windows.map Window.last = [1097] ∧ t.counters.windowsExtended = 1) = true := by decide +kernel

/-- HELD; FULL with exactly 6 windows; a retrigger ignored; a retrigger that extends. -/
theorem witness_OpenRequestRefusedOrRetrigger :
    (∀ h o ws, (opening h o ws).engine.pass = none ∧ (opening h o ws).paths.tableToEngine = .request request59 :: [] ∧
      (opening h o ws).engine.held = h) ∧
    (∀ o ∈ [Overlap.separate, .extend, .ignore],
      ((opening false o []).engine.profiles.get request59.profile).overlap = o) ∧
    6 ≤ (opening false .separate (closedWindows 6)).engine.windows.length ∧
    matches_ (opening false .ignore (closedWindows 6)) request59 = [] ∧
    matches_ (opening false .ignore [window17 1000 true .opened 0 0 0 false]) request59 ≠ [] ∧
    matches_ (opening false .extend [window17 1000 true .opened 0 0 0 false]) request59 =
      [] ++ [window17 1000 true .opened 0 0 0 false] :=
  ⟨fun _ _ _ => ⟨rfl, rfl, rfl⟩, by decide +kernel⟩

/-- An engine under the lost flag with no frontier: a flushed notice first, then a node-reset notice, then LOST. -/
def lostWithoutFrontier : State :=
  let s := opening false .separate []
  { s with engine := { s.engine with lostFlag := true } }

/-- Exactly 5 windows in the list, which hold the next five ids. Under the lost flag with no frontier the window drains
from F = 1,000 to L0 = 1,003 (notes/assumptions/20). -/
theorem witness_OpenRequestCreatesWindow :
    (opening false .separate (closedWindows 5)).engine.pass = none ∧
    (opening false .separate (closedWindows 5)).paths.tableToEngine = .request request59 :: [] ∧
    (opening false .separate (closedWindows 5)).engine.held = false ∧
    ((opening false .separate (closedWindows 5)).engine.profiles.get request59.profile).overlap = .separate ∧
    (opening false .separate (closedWindows 5)).engine.windows.length ≤ 5 ∧
    leaves .openRequest (opening false .separate (closedWindows 5)) (fun t =>
      t.engine.windows.map Window.id = [0, 1, 2, 3, 4, 5] ∧ t.engine.nextId = 6) = true ∧
    lostWithoutFrontier.engine.frontier = none ∧
    leaves .openRequest lostWithoutFrontier (fun t => t.engine.windows.map (fun w =>
      (w.state, w.first, w.last, w.flags.streamLost)) = [(.draining, 1000, 1003, true)]) = true := by decide +kernel

/-- Every notice, with the reset balance at 1, at 0 and at -1. -/
theorem witness_EngineTakesNotices :
    (∀ x ∈ [StoreNotice.stored 9, .overwritten 9, .lost 9, .flushedRestart, .flushedNodeReset],
      (withPaths { emptyPaths with storeToEngine := [x] }).paths.storeToEngine = x :: [] ∧
      (withPaths { emptyPaths with storeToEngine := [x] }).engine.pass = none) ∧
    (0 : Int) < ({ resetEngine with balance := 1 } : Engine).balance ∧ State.reset.engine.balance ≤ 0 ∧
    ({ resetEngine with balance := -1 } : Engine).balance ≤ 0 ∧
    (withPaths { emptyPaths with queueToEngine := [.room] }).paths.queueToEngine = .room :: [] ∧
    (withPaths { emptyPaths with queueToEngine := [.tailTransmitted 17] }).paths.queueToEngine =
      .tailTransmitted 17 :: [] ∧
    (withPaths { emptyPaths with agentToEngine := [.safeState] }).paths.agentToEngine = .safeState :: [] ∧
    (withPaths { emptyPaths with agentToEngine := [.sessionOpen] }).paths.agentToEngine = .sessionOpen :: [] ∧
    (withPaths { emptyPaths with tableToEngine := [.mark 3] }).paths.tableToEngine = .mark 3 :: [] ∧
    (withPaths { emptyPaths with tableToEngine := [.nodeReset] }).paths.tableToEngine = .nodeReset :: [] := by
  decide +kernel

/-- The state of a pass over the store of Section 5.9, at a stage. -/
def passing (st : PassStage) (balance : Int) (frontier : Option Round) (ws : List Window) : State :=
  let s := capturing frontier ws emptyPaths
  { s with engine := { s.engine with balance := balance, pass := some { stage := st, before := viewOf s } } }

/-- A window of each kind over the store of `gapStream`: behind it, on a gap inside it, on a gap at its last round, and
on a held round. -/
def windows103 : List Window :=
  [{ window17 998 true .opened 0 0 0 false with id := 1 }, { window17 1001 true .opened 3 5 0 false with id := 2 },
   { window17 1002 true .draining 3 5 1 true with id := 3, last := 1002 },
   { window17 1003 true .draining 3 5 2 true with id := 4 }]

/-- A stream LOST after 1,003, the store holding 1,000 and 1,003, and a pass that settles the windows of each kind. -/
def gapStream : State :=
  { lostAt 1003 with
    store := { ring := recordsFrom 1000 1 ++ [recordOf 1003 [(0, 7)] 2 false], spanStart := some 1000 }
    engine := { resetEngine with
      windows := windows103, pass := some { stage := .settling, before := { windows := [], held := false, nextId := 0 } } } }

theorem gapStream_streamLaw : StreamLaw gapStream :=
  ⟨by decide +kernel, by unfold RingOrdered; decide +kernel, by decide +kernel, trivial, rfl, rfl, by decide⟩

/-- A CLOSING window with and without its head; the settling stage with a balance of 0 and of 1, a stream law, and
windows behind, on a gap and on a held round; a serving stage with nothing ready; and one with a head ready, a group
ready and an empty group ready. -/
theorem witness_ServicePassTurns :
    StreamLaw gapStream ∧ WindowListLaw gapStream ∧ gapStream.engine.balance = 0 ∧
    gapStream.engine.windows.find? (fun w => decide (w.state = .closing)) = none ∧
    (∀ w ∈ gapStream.engine.windows, live w = true ∧ atOrAfter w.last w.cursor = true) ∧
    gapStream.engine.windows.map (fun w => classify gapStream.store w.cursor) = [.behind, .gap, .gap, .held] ∧
    (∀ b, WindowListLaw (passing .settling 0 none [window17 1004 b .closing 5 9 1 true])) ∧
    (passing .settling 0 none [window17 1004 true .closing 5 9 1 true]).engine.windows.find?
      (fun w => decide (w.state = .closing)) = some (window17 1004 true .closing 5 9 1 true) ∧
    (∀ st ∈ [PassStage.settling, .serving], (passing st 0 none []).engine.pass =
      some { stage := st, before := viewOf (capturing none [] emptyPaths) }) ∧
    (passing .settling 1 none []).engine.balance ≠ 0 ∧ (passing .settling 0 none []).engine.balance = 0 ∧
    (∀ w ∈ (passing .serving 0 none []).engine.windows, isReady (passing .serving 0 none []) w = false) ∧
    headReady (passing .serving 0 (some 1000) []) (window17 998 false .opened 0 0 0 false) = true ∧
    (roundReady (passing .serving 0 (some 1000) []) (window17 1000 true .opened 0 0 0 false)).map List.length = some 2 ∧
    roundReady (passing .serving 0 (some 1000) []) { window17 999 true .opened 0 0 0 false with mask := 2 } = some [] ∧
    isReady (passing .serving 0 (some 1000) []) (window17 1001 true .opened 0 0 0 false) = false := by
  refine ⟨gapStream_streamLaw, ⟨by decide, by decide⟩, by decide +kernel, by decide +kernel, by decide +kernel,
    by decide +kernel, fun b => ⟨?_, ?_⟩, by decide +kernel⟩ <;> cases b <;> decide +kernel

/-- A queue with `n` LIVE cells. -/
def filled (n : Nat) : Egress :=
  { resetEgress with lives := List.replicate n { channel := 0, round := 0, value := 0 } }

/-- Occupancy 239 and 240 for a head; 238 and 239 for a group of two; a tail at any. -/
theorem witness_WindowOffersAnswered :
    occupancy (filled 239) < 240 ∧ 240 ≤ occupancy (filled 240) ∧ occupancy (filled 238) + 1 + 1 ≤ 240 ∧
    240 < occupancy (filled 239) + 1 + 1 ∧
    (∀ x, (withPaths { emptyPaths with engineOffers := [x] }).paths.engineOffers = x :: []) :=
  ⟨by decide +kernel, by decide +kernel, by decide +kernel, by decide +kernel, fun _ => rfl⟩

/-- Counted windows behind the store, on a gap, on a gap at L, and on a held round at L; one that is CLOSED; and OPEN
windows that a new L shortens: with the cursor past it, with the cursor at it, and with no round left. -/
theorem witness_SkipsCountEveryRound :
    StreamLaw gapStream ∧
    (∀ w ∈ windows103, Counted w ∧ live w = true ∧ atOrAfter w.last w.cursor = true ∧ hasRounds w = true) ∧
    (windows103.map fun w =>
      let v := settleSkip gapStream.store w
      (v.cursor, v.lost, v.state, v.flags.truncated, v.flags.gap)) =
      [(1000, 2, .opened, true, false), (1003, 2, .opened, false, true), (1003, 2, .closing, false, true),
       (1003, 2, .draining, false, true)] ∧
    Counted (window17 1004 true .closed 5 9 1 true) ∧
    (∀ p ∈ [(window17 1004 true .opened 3 5 3 true, (1000#32 : Round)), (window17 1000 true .opened 2 4 0 false, 1000#32),
        (window17 998 true .opened 0 0 0 false, 997#32)],
      Counted p.1 ∧ p.1.state = .opened ∧ atOrAfter p.1.last p.2 = true ∧ distance p.2 p.1.cursor ≠ 2147483648 ∧
      p.1.emitted ≤ roundsBetween p.1.first p.2) :=
  ⟨gapStream_streamLaw, by unfold Counted; decide +kernel, by decide +kernel, by unfold Counted; decide +kernel,
    by unfold Counted; decide +kernel⟩

/-- A CLOSED window whose tail is queued, with its transmission about to start. -/
def tailQueued : State :=
  { capturing none [window17 1004 true .closed 5 9 1 true] emptyPaths with
    egress := { resetEgress with windows := [.tail (tailOf (window17 1004 true .closed 5 9 1 true))], credits := 1 }
    pending := [.transmissionStart] }

theorem tailQueued_tailLaw : TailLaw tailQueued := by
  refine ⟨⟨by decide +kernel, by decide +kernel⟩, by decide +kernel, fun i hi => ?_, ?_, ?_⟩
  · rw [show tailsOut tailQueued = [17] from rfl, List.mem_singleton] at hi
    subst hi
    exact ⟨_, List.mem_singleton.mpr rfl, rfl, rfl⟩
  · refine ⟨List.pairwise_singleton _ _, fun c hc => ?_, nofun⟩
    exact ⟨_, List.mem_singleton.mpr rfl, by rw [List.mem_singleton.mp hc]; rfl, rfl⟩
  · show _ = _ ∧ _
    exact ⟨rfl, by decide +kernel⟩

theorem witness_TailLawKept : TailLaw tailQueued ∧ ∃ t, step tailQueued = .next t ∧ t.egress.windows = [] :=
  ⟨tailQueued_tailLaw, _, rfl, by decide +kernel⟩

/-- A node reset in progress whose flushed notice the engine has taken first (Table 5-10). -/
def resetHalfway : State :=
  { State.reset with
    engine := { resetEngine with balance := -1 }
    agent := { resetAgent with
      session := .opened, nodeResetting := true, phase := .awaitingAck, fifo := [ask 0 0x0D 0], linesAcked := true }
    paths := { emptyPaths with tableToEngine := [.nodeReset] }, pending := [.windowNodeResetNotice] }

theorem resetHalfway_epochLaw : EpochLaw resetHalfway := by
  unfold EpochLaw; decide +kernel

theorem witness_BalanceLawKept :
    BalanceLaw resetHalfway ∧ EpochLaw resetHalfway ∧ ∃ t, step resetHalfway = .next t ∧ t.engine.balance = 0 :=
  ⟨by unfold BalanceLaw; decide +kernel, resetHalfway_epochLaw, _, rfl, by decide +kernel⟩

/-! ## The Output Line Unit (Section 6.9) -/

/-- Lines 2 (idle LOW) and 5 (idle HIGH) enabled, in the given states, with the last step round and paths. -/
def lined (held : Bool) (l2 l5 : LineState) (last : Option Round) (p : Paths) : State :=
  { State.reset with
    lines :=
      { entries := (resetLines.entries.set 2 { enable := true, idle := .low }).set 5 { enable := true, idle := .high }
        lines := (resetLines.lines.set 2 l2).set 5 l5, held := held, lastStep := last, epoch := 0 }
    paths := p }

/-- A line step on the Trigger Table's path. -/
def stepOf (r : Round) (acts : List LineOp) : Paths := { emptyPaths with tableToLines := [.step { round := r, actions := acts }] }

/-- Table 6-5, steps 100 and 105: a pulse to 110 and a level; a shorter pulse does not cut it. -/
theorem test_steps_100_and_105_of_table_6_5 :
    leaves .lineStep (lined false .inactive .inactive none (stepOf 100
        [{ line := 2, action := .pulse, length := 10 }, { line := 5, action := .set, length := 1 }])) (fun t =>
      t.lines.lines.get 2 = .pulsing 110 ∧ t.lines.lines.get 5 = .levelled ∧ pinOf t 2 = .high ∧ pinOf t 5 = .low ∧
      t.lines.lastStep = some 100) = true ∧
    leaves .lineStep (lined false (.pulsing 110) .levelled (some 100) (stepOf 105
        [{ line := 2, action := .pulse, length := 3 }])) (fun t => t.lines.lines.get 2 = .pulsing 110) = true := by
  decide +kernel

/-- Table 6-5, steps 108, 111 and 112. -/
theorem test_steps_108_to_112_of_table_6_5 :
    leaves .lineStep (lined false (.pulsing 110) .levelled (some 105) (stepOf 108
        [{ line := 2, action := .toggle, length := 1 }, { line := 2, action := .toggle, length := 1 }]))
      (fun t => t.lines.lines.get 2 = .pulsing 110) = true ∧
    leaves .lineStep (lined false (.pulsing 110) .levelled (some 108) (stepOf 111 []))
      (fun t => t.lines.lines.get 2 = .inactive ∧ t.lines.lines.get 5 = .levelled) = true ∧
    leaves .lineStep (lined false .inactive .levelled (some 111) (stepOf 112
        [{ line := 2, action := .pulse, length := 4 }, { line := 2, action := .toggle, length := 1 }]))
      (fun t => t.lines.lines.get 2 = .pulsing 116) = true := by decide +kernel

/-- Table 6-5, the LOST notice, LINE TOGGLE and step 130. -/
theorem test_lost_toggle_and_clear_of_table_6_5 :
    leaves .lineLostNotice (lined false (.pulsing 116) .levelled (some 112) { emptyPaths with tableToLines := [.lost] })
      (fun t => t.lines.lines.get 2 = .inactive ∧ t.lines.lines.get 5 = .levelled) = true ∧
    leaves .lineNotice (lined false .inactive .levelled (some 112) { emptyPaths with agentToLines := [.line 5 .toggle] })
      (fun t => t.lines.lines.get 5 = .inactive ∧ pinOf t 5 = .high ∧
        t.paths.lineAcks = [.notice .applied (some 112)]) = true ∧
    leaves .lineStep (lined false .inactive .inactive (some 112) (stepOf 130
        [{ line := 5, action := .clear, length := 1 }, { line := 5, action := .set, length := 1 }]))
      (fun t => t.lines.lines.get 5 = .inactive ∧ t.lines.lastStep = some 130) = true := by decide +kernel

/-- Section 6.9, last paragraph: the safe state drives both pins idle; a held step sets the last step round alone. -/
theorem test_safe_state_idles_the_pins :
    leaves .lineSafeState (lined false (.pulsing 110) .levelled (some 100) { emptyPaths with agentToLines := [.safeState] })
      (fun t => pinOf t 2 = .low ∧ pinOf t 5 = .high ∧ t.lines.held = true) = true ∧
    leaves .lineStep (lined true .inactive .inactive (some 100) (stepOf 105 [{ line := 2, action := .set, length := 1 }]))
      (fun t => t.lines.lines.get 2 = .inactive ∧ t.lines.lastStep = some 105) = true := by decide +kernel

/-- Held, disabled, not named, and enabled and named. -/
theorem witness_LineStepExpiresThenCombines :
    (∀ h, (lined h .inactive .inactive none (stepOf 100 [{ line := 2, action := .set, length := 1 }])).lines.held = h) ∧
    ((lined false .inactive .inactive none emptyPaths).lines.entries.get 2).enable = true ∧
    ((lined false .inactive .inactive none emptyPaths).lines.entries.get 7).enable = false ∧
    (lined false .inactive .inactive none (stepOf 100 [])).paths.tableToLines = .step { round := 100, actions := [] } :: [] :=
  ⟨fun _ => rfl, by decide +kernel, by decide +kernel, rfl⟩

theorem witness_LinesTakeNotices :
    (∀ x, (lined true .inactive .inactive none { emptyPaths with agentToLines := [x] }).paths.agentToLines = x :: []) ∧
    (∀ h, (lined h .inactive .inactive none emptyPaths).lines.held = h) ∧
    ((lined false .inactive .inactive none emptyPaths).lines.entries.get 5).enable = true ∧
    ((lined false .inactive .inactive none emptyPaths).lines.entries.get 0).enable = false ∧
    (∀ x, (lined false .inactive .inactive none { emptyPaths with tableToLines := [x] }).paths.tableToLines = x :: []) :=
  ⟨fun _ => rfl, fun _ => rfl, by decide +kernel, by decide +kernel, fun _ => rfl⟩

/-- A safe-state notice taken, a held unit, and a held unit that a session open releases. -/
theorem witness_SafeStatePinsStayIdle :
    (withPaths { emptyPaths with agentToLines := [.safeState] }).paths.agentToLines = .safeState :: [] ∧
    (lined true .levelled .levelled none emptyPaths).lines.held = true ∧
    (lined false .levelled .levelled none emptyPaths).lines.held = false ∧
    (∃ t, exec .lineSessionOpen (lined true .inactive .inactive none { emptyPaths with agentToLines := [.sessionOpen] }) =
      .next t ∧ t.lines.held = false) := ⟨by decide +kernel, by decide +kernel, by decide +kernel, _, rfl, rfl⟩

/-! ## The Egress Queue (Section 7.8) -/

/-- The queue of Section 7.8 with `w` window cells and 4 LIVE cells. -/
def queued (w credits : Nat) (p : Paths) : State :=
  { State.reset with
    egress := { filled 4 with
      windows := List.replicate w (.sample { id := 0, round := 0, channel := 0, value := 0, complete := true })
      credits := credits, nextSeq := 5000 }
    paths := p }

/-- A reply and an event. -/
def aReply : ReplyCell := { tag := 1, kind := 4, result := .ok, value := 0, aux := 0 }
def anEvent : EventCell := { code := .roundGap, round := some 9, a := 1, b := 1, forced := false }

/-- Table 7-6, steps 1 to 3: the LIVE cell is dropped at 240, the event and the reply are admitted. -/
theorem test_offers_at_240_of_table_7_6 :
    leaves .liveOffer (queued 236 0 { emptyPaths with asmOffers := [.live { channel := 0, round := 0, value := 0 }] })
      (fun t => occupancy t.egress = 240 ∧ t.counters.liveDropped = 1) = true ∧
    leaves (.eventOffer .assembler) (queued 236 0 { emptyPaths with asmOffers := [.event anEvent] })
      (fun t => t.egress.events = [anEvent]) = true ∧
    leaves .replyOffer (queued 236 0 { emptyPaths with agentOffers := [.reply aReply] })
      (fun t => t.egress.replies = [aReply] ∧ t.egress.waitingReply = none) = true := by decide +kernel

/-- Table 7-6, step 5: the reply starts with number 5,000. -/
theorem test_reply_starts_first :
    (let s := queued 236 3 emptyPaths
     leaves .transmissionStart { s with egress := { s.egress with replies := [aReply], events := [anEvent] } } (fun t =>
      t.egress.sending = some { seq := 5000, cell := .reply aReply } ∧ t.egress.nextSeq = 5001 ∧ t.egress.credits = 2 ∧
      occupancy t.egress = 241 ∧ t.paths.queueToEngine = [.room])) = true := by decide +kernel

/-- Section 7.8, last paragraph: a start that leaves 249 admits the waiting reply. -/
theorem test_waiting_reply_is_admitted_at_a_start :
    (let s := queued 245 1 emptyPaths
     leaves .transmissionStart { s with egress := { s.egress with events := [anEvent], waitingReply := some aReply } }
      (fun t => t.egress.replies = [aReply] ∧ t.egress.waitingReply = none ∧ t.agent.phase = .free)) = true := by
  decide +kernel

/-- Table 7-6, step 10: CREDIT 5 at 1,022 overflows by 4. -/
theorem test_credit_overflow_of_table_7_6 :
    leaves .creditNotice (queued 236 1022 { emptyPaths with credits := [5] }) (fun t => t.egress.credits = 1023 ∧
      t.egress.events = [{ code := .creditOverflow, round := none, a := 4, b := 5, forced := false }]) = true := by
  decide +kernel

/-- R148: an adoption and an offer of the Agent may be taken in either order. LEASE_EXPIRED, offered before the commit
completed, is admitted under the old mask when it is taken first, and dropped under mask 0 when the adoption is. The
COMMIT reply follows the adoption. -/
theorem test_adoption_and_offer_in_either_order :
    (let s := withPaths { emptyPaths with
       settings := [⟨16, 0⟩], agentOffers := [.event { anEvent with code := .leaseExpired }, .reply aReply] }
     leaves (.eventOffer .agent) s (fun t => t.egress.events.length = 1 ∧ t.paths.settings = [⟨16, 0⟩] ∧
      leaves .replyOffer t (fun u => u = t) = true) ∧
     leaves .settingsAdoption s (fun t => t.egress.liveLimit = 16 ∧ t.egress.eventMask = 0 ∧
      leaves (.eventOffer .agent) t (fun u => u.egress.events = [] ∧ u.paths.agentOffers = [.reply aReply]) = true)) := by
  decide +kernel

/-- Each limit from both sides: the live limit, 240 and 250; a masked event; a reply already waiting. -/
theorem witness_OffersAnsweredByLimit :
    occupancy (filled 127) < (filled 127).liveLimit ∧ ¬ occupancy (filled 128) < (filled 128).liveLimit ∧
    occupancy (filled 239) < 240 ∧ ¬ occupancy (filled 240) < 240 ∧ occupancy (filled 249) < 250 ∧
    ¬ occupancy (filled 250) < 250 ∧ (filled 0).waitingReply = none ∧ emptyPaths.settings = [] ∧
    ({ emptyPaths with settings := [⟨16, 0⟩] } : Paths).settings ≠ [] ∧
    (filled 0).eventMask.getLsbD (eventCode anEvent.code - 1) = true ∧
    (∀ x, (withPaths { emptyPaths with asmOffers := [x] }).paths.asmOffers = x :: []) ∧
    (∀ x, (withPaths { emptyPaths with tableOffers := [x] }).paths.tableOffers = x :: []) ∧
    (∀ x, (withPaths { emptyPaths with engineOffers := [x] }).paths.engineOffers = x :: []) ∧
    (∀ x, (withPaths { emptyPaths with agentOffers := [x] }).paths.agentOffers = x :: []) := by
  refine ⟨?_, ?_, ?_, ?_, ?_, ?_, ?_, rfl, nofun, ?_, fun _ => rfl, fun _ => rfl, fun _ => rfl, fun _ => rfl⟩ <;>
    decide +kernel

/-- One credit with a cell in each class in turn; no credit; nothing queued; a cell in transmission. -/
theorem witness_TransmissionTakesHighestClass :
    (queued 1 1 emptyPaths).egress.sending = none ∧ 0 < (queued 1 1 emptyPaths).egress.credits ∧
    ({ filled 1 with replies := [aReply] } : Egress).replies = aReply :: [] ∧
    ({ filled 1 with events := [anEvent] } : Egress).events = anEvent :: [] ∧
    (queued 1 1 emptyPaths).egress.windows ≠ [] ∧ ({ filled 1 with relays := [7] } : Egress).relays = 7 :: [] ∧
    (filled 1).windows = [] ∧ (filled 1).relays = [] ∧ (filled 1).lives ≠ [] ∧ (filled 1).credits = 0 ∧
    occupancy (filled 0) = 0 ∧ ({ filled 0 with sending := some { seq := 0, cell := .reply aReply } } : Egress).sending ≠
      none ∧ State.reset.clock.refclk = true := by decide +kernel

/-- Sums of 1,023 and 1,024; settings on their way beside an event that the Agent has offered. -/
theorem witness_CreditsAndSettingsTaken :
    (queued 0 1022 { emptyPaths with credits := [1] }).paths.credits = 1 :: [] ∧
    (queued 0 1022 emptyPaths).egress.credits + 1 ≤ 1023 ∧ 1023 < (queued 0 1023 emptyPaths).egress.credits + 1 ∧
    (withPaths { emptyPaths with settings := [⟨240, 0⟩], agentOffers := [.event anEvent] }).paths.settings = [⟨240, 0⟩] := by
  decide +kernel

/-- A queue at 250 cells with 1,023 credits, a LIVE offer and settings on their way. -/
def fullQueue : State :=
  { queued 246 1023 { emptyPaths with settings := [⟨16, 0⟩] } with pending := [.settingsAdoption] }

theorem fullQueue_queueLaw : QueueLaw fullQueue := by
  refine ⟨by decide +kernel, by decide +kernel, by decide +kernel, ?_, ?_, ?_, ?_⟩
  · unfold LimitInRange; decide +kernel
  · unfold LimitInRange; decide +kernel
  · unfold LimitInRange; decide +kernel
  · intro x hx
    rw [show fullQueue.paths.settings = [⟨16, 0⟩] from rfl, List.mem_singleton] at hx
    subst hx; show 16 ≤ 16 ∧ 16 ≤ 240; decide

theorem witness_QueueLawKept : QueueLaw fullQueue ∧ ∃ t, step fullQueue = .next t ∧ t.egress.liveLimit = 16 :=
  ⟨fullQueue_queueLaw, _, rfl, by decide +kernel⟩

/-- A state that meets both laws, and a LIVE cell admitted into it. -/
theorem witness_EgressQueueKeepsItsLimits :
    TailLaw State.reset ∧ QueueLaw State.reset ∧
    leaves .liveOffer (withPaths { emptyPaths with asmOffers := [.live { channel := 0, round := 0, value := 0 }] })
      (fun t => t.egress.lives.length = 1) = true := by
  refine ⟨⟨⟨by decide, by decide⟩, by decide, nofun, ⟨List.Pairwise.nil, nofun, nofun⟩, ?_⟩,
    ⟨by decide, by decide, by decide, ?_, ?_, ?_, nofun⟩, by decide +kernel⟩
  · show _ = _ ∧ _
    exact ⟨rfl, by decide⟩
  · unfold LimitInRange; decide
  · unfold LimitInRange; decide +kernel
  · unfold LimitInRange; decide +kernel

/-- A transmission start that takes the number on past 65,535 and the counter to 0. -/
theorem witness_SequenceAndCreditLaws :
    (∃ t, exec .transmissionStart { State.reset with
        egress := { resetEgress with replies := [aReply], credits := 1, nextSeq := 65535 } } = .next t ∧
      t.egress.nextSeq = 0 ∧ t.egress.credits = 0 ∧
      t.egress.sending = some { seq := 65535, cell := .reply aReply }) ∧ QueueLaw fullQueue ∧
    (∃ t, exec .powerOnReset fullQueue = .next t ∧ t.egress.nextSeq = 0) :=
  ⟨⟨_, rfl, by decide, by decide, by decide⟩, fullQueue_queueLaw, _, rfl, by decide +kernel⟩

/-! ## The Management Agent (Chapters 8 and 9) -/

/-- The bank of Section 8.6 before step 7: channel 4 OUTSIDE from 500 to 700 with hysteresis `h`. -/
def bank86 (h : Nat) : Bank :=
  let e : ChannelEntry :=
    { mode := .gate, condition := .outside, levelA := 500, levelB := 700, hysteresis := h, qualify := 1 }
  { defaultBank with channels := defaultBank.channels.set 4 e }

/-- The Agent of Section 8.6 with a request at its head, the staged bank, and the write count. -/
def agent86 (b : Bank) (count : Nat) (q : Request) : State :=
  { State.reset with agent := { resetAgent with
      session := .opened, epoch := 3, staging := b, writeCount := count, fifo := [q] } }

/-- Table 8-8, steps 1 and 5: condition 3 is written; qualify 0 is not. -/
theorem test_writes_of_table_8_8 :
    leaves .write (agent86 defaultBank 0 { ask 0 5 3 with index := 4, field := 1 }) (fun t =>
      (t.agent.staging.channels.get 4).condition = .outside ∧ t.agent.writeCount = 1 ∧
      lastReply t = some (.ok, 1, 0)) = true ∧
    leaves .write (agent86 (bank86 150) 4 { ask 0 5 0 with index := 4, field := 5 }) (fun t =>
      t.agent.staging = bank86 150 ∧ t.agent.writeCount = 4 ∧ lastReply t = some (.badArg, 0, 0)) = true := by
  decide +kernel

/-- Table 8-8, steps 6 and 7: COUNT, then BADCFG of check 2 at CHANNEL 4. -/
theorem test_failed_commits_of_table_8_8 :
    leaves .commit (agent86 (bank86 150) 4 (ask 0 7 5)) (fun t => lastReply t = some (.count, 4, 0)) = true ∧
    leaves .commit (agent86 (bank86 150) 4 (ask 0 7 4)) (fun t => lastReply t = some (.badCfg, 2, 4)) = true := by
  decide +kernel

/-- Table 8-8, step 9: the commit starts with epoch 4. -/
theorem test_commit_start_of_table_8_8 :
    leaves .commit (agent86 (bank86 100) 5 (ask 0 7 5)) (fun t => t.agent.epoch = 4 ∧ t.agent.committing = true ∧
      t.paths.agentToAsm = [.commit 4] ∧ t.paths.agentOffers = []) = true := by decide +kernel

/-- A commit that waits for what is left of its reports. -/
def committed (engine lines : Bool) (m : MarkRound) (p : Paths) : State :=
  { State.reset with
    agent := { resetAgent with
      session := .opened, epoch := 4, staging := bank86 100, writeCount := 5, fifo := [ask 0 7 5], committing := true
      phase := .awaitingAck, markRound := m, engineAcked := engine, linesAcked := lines }
    paths := p }

/-- Table 8-8, step 10: the second acknowledgement completes the commit, the settings before the reply. -/
theorem test_commit_completion_of_table_8_8 :
    leaves (.markAck .outputLines) (committed true false (.round 8000) { emptyPaths with lineAcks := [.mark 4] }) (fun t =>
      t.agent.active = bank86 100 ∧ t.agent.writeCount = 0 ∧ t.agent.committing = false ∧ t.paths.settings = [⟨128, 511⟩] ∧
      t.paths.agentOffers = [.reply { tag := 0x2A, kind := 7, result := .ok, value := 4, aux := 8000 }]) = true := by
  decide +kernel

/-- R177, R179, R180: OPEN for 5,000 ms, RENEW at service, and the expiry. -/
theorem test_open_renew_and_expiry :
    leaves .openSession (serving .closed (ask 0 1 5000)) (fun t => t.agent.session = .opened ∧
      t.agent.leaseExpiry = some 5000000 ∧ lastReply t = some (.ok, 5000, 0)) = true ∧
    leaves .renew { serving .opened (ask 0 3 0) with
        agent := { resetAgent with session := .opened, fifo := [ask 0 3 0], leasePeriod := 5000
                                   leaseExpiry := some 2500 } }
      (fun t => lastReply t = some (.ok, 5000, 2)) = true ∧
    leaves .leaseExpiry { State.reset with
        agent := { resetAgent with session := .opened, leasePeriod := 5, leaseExpiry := some 5000 } }
      (fun t => t.agent.session = .expired ∧ t.clock.localTimer = 5000 ∧ t.paths.agentToTable = [.safeState] ∧
        t.paths.agentToLines = [.safeState] ∧ t.paths.agentToEngine = [.safeState]) = true := by decide +kernel

/-- R174, R176: BADKIND for kind 0x0F, NOSESSION for a FRONT request in CLOSED, a relay in OPEN. -/
theorem test_unknown_kind_and_front_request :
    leaves .unknownKindService (serving .opened (ask 0 0x0F 0)) (fun t => lastReply t = some (.badKind, 0, 0)) = true ∧
    leaves .frontRelay (serving .closed (ask 1 0x55 0)) (fun t => lastReply t = some (.noSession, 0, 0)) = true ∧
    leaves .frontRelay (serving .opened (ask 1 0x00 5000)) (fun t =>
      t.frontOut = some 0x2A00000000000000138800000000000000000000#160 ∧ t.agent.fifo = []) = true := by decide +kernel

/-- R175: ARM of mask 255 is dispatched; LINE with value 3 is BADARG; a refused ARM is answered EXPIRED. -/
theorem test_direct_requests :
    leaves .arm (serving .opened (ask 0 8 255)) (fun t => t.agent.phase = .dispatching) = true ∧
    leaves .line (serving .opened (ask 0 0x0B 3)) (fun t => lastReply t = some (.badArg, 0, 0)) = true ∧
    leaves .noticeAck { State.reset with
        agent := { resetAgent with session := .opened, fifo := [ask 0 8 255], phase := .awaitingAck }
        paths := { emptyPaths with tableAcks := [{ refused := true, round := none }] } }
      (fun t => lastReply t = some (.expired, 0, 0xFFFFFFFF)) = true := by decide +kernel

/-- R170, R171: the ninth request is dropped; a RENEW restarts the lease although the FIFO is full. -/
theorem test_arrivals_with_a_full_fifo :
    leaves (.requestArrival 10 (ask 0 3 0)) { State.reset with
        agent := { resetAgent with session := .opened, leasePeriod := 5, leaseExpiry := some 5000
                                   fifo := List.replicate 8 (ask 0 4 0) } }
      (fun t => t.agent.fifo.length = 8 ∧ t.counters.requestsDropped = 1 ∧ t.agent.leaseExpiry = some 5010) = true ∧
    leaves (.requestArrival 0 (ask 2 1 0)) State.reset (fun t => t.counters.malformedRequests = 1) = true := by
  decide +kernel

/-- R182: the second acknowledgement ends the node reset. -/
theorem test_node_reset_ends :
    leaves (.nodeResetAck .windowEngine) { resetHalfway with
        paths := { emptyPaths with engineAcks := [.nodeReset] } }
      (fun t => t.agent.nodeResetting = false ∧ lastReply t = some (.ok, 0, 0)) = true := by decide +kernel

/-- R184, R185 with Tables 10-6 and 9-4: three READs. -/
theorem test_reads :
    leaves .readStateAgent (serving .expired { ask 0 4 0 with area := 2, table := 6, field := 0 })
      (fun t => lastReply t = some (.ok, 2, 0)) = true ∧
    leaves .readStateHistory (serving .closed { ask 0 4 0 with area := 2, table := 0, field := 1 })
      (fun t => lastReply t = some (.ok, 0, 1)) = true ∧
    leaves .readCounters (serving .closed { ask 0 4 0 with area := 3, index := 21 })
      (fun t => lastReply t = some (.badArg, 0, 0)) = true := by decide +kernel

/-- Arrivals at the bounds of a grant and of the destination, and the states of the lease. -/
theorem witness_RequestClassifiedOnArrival :
    State.reset.clock.refclk = true ∧ (ask 2 0 0).dest ≠ 0x00#8 ∧ (ask 2 0 0).dest ≠ 0x01#8 ∧
    1 ≤ (ask 0 0x0E 1).value.toNat ∧ (ask 0 0x0E 1023).value.toNat ≤ 1023 ∧ (ask 0 0x0E 0).value.toNat = 0 ∧
    1023 < (ask 0 0x0E 1024).value.toNat ∧ (ask 0 3 0).kind = 0x03#8 ∧ State.reset.agent.session ≠ .opened ∧
    (serving .opened (ask 0 3 0)).agent.session = .opened ∧ (serving .opened (ask 0 3 0)).agent.leasePeriod = 0 ∧
    0 < ({ resetAgent with leasePeriod := 1 } : Agent).leasePeriod ∧ (ask 1 3 0).dest = 0x01#8 := by decide +kernel

/-- Every request kind at the head of a FREE Agent. -/
theorem witness_SessionNeededIsChecked :
    (∀ x ∈ [Session.closed, .expired, .opened], ∀ p ∈ [(0x01#8, Kind.openSession), (0x02#8, .closeSession),
        (0x03#8, .renew), (0x04#8, .read), (0x05#8, .write), (0x06#8, .revert), (0x07#8, .commit), (0x08#8, .arm),
        (0x09#8, .disarm), (0x0A#8, .fire), (0x0B#8, .line), (0x0C#8, .clearCounters), (0x0D#8, .nodeReset)],
      let s := serving x (ask 0 p.1 0)
      s.agent.session = x ∧ s.agent.phase = .free ∧ s.agent.nodeResetting = false ∧ s.agent.committing = false ∧
      s.agent.fifo.head? = some (ask 0 p.1 0) ∧ (ask 0 p.1 0).dest = 0x00#8 ∧ kindOf (ask 0 p.1 0).kind = some p.2) ∧
    kindOf 0x00#8 = none ∧ kindOf 0x0F#8 = none ∧ (serving .closed (ask 1 0 0)).agent.fifo.head? = some (ask 1 0 0) := by
  decide +kernel

/-- A request at the head of a FREE Agent, as the service statements ask. -/
theorem serving_free (x : Session) (q : Request) (k : Kind) (h : q.dest = 0x00#8) (hk : kindOf q.kind = some k) :
    Serving (serving x q) q k := ⟨⟨rfl, rfl, rfl, rfl⟩, h, hk⟩

/-- OPEN at 60,000 and 60,001; CLOSE and RENEW in OPEN; a lease that is due, and none. -/
theorem witness_SessionOpensClosesExpires :
    Serving (serving .expired (ask 0 1 60000)) (ask 0 1 60000) .openSession ∧ (ask 0 1 60000).value.toNat ≤ 60000 ∧
    60000 < (ask 0 1 60001).value.toNat ∧ Serving (serving .opened (ask 0 2 0)) (ask 0 2 0) .closeSession ∧
    Serving (serving .opened (ask 0 3 0)) (ask 0 3 0) .renew ∧ (serving .opened (ask 0 3 0)).agent.session = .opened ∧
    (∀ x ∈ runningExpiries { State.reset with agent := { resetAgent with leaseExpiry := some 5000 } }, 5000 ≤ x) ∧
    State.reset.agent.leaseExpiry = none :=
  ⟨serving_free _ _ _ rfl rfl, by decide, by decide, serving_free _ _ _ rfl rfl, serving_free _ _ _ rfl rfl, rfl,
    by decide, rfl⟩

theorem witness_LeaseTimerChangesOnlyAsRuled :
    ∃ t, exec .openSession (serving .closed (ask 0 1 5000)) = .next t ∧
      t.agent.leaseExpiry ≠ (serving .closed (ask 0 1 5000)).agent.leaseExpiry := ⟨_, rfl, by decide +kernel⟩

/-- A value at the bound of its range, and one past it. -/
theorem witness_WriteAndRevertEditStaging :
    Serving (serving .opened (ask 0 5 2)) (ask 0 5 2) .write ∧ Serving (serving .opened (ask 0 6 0)) (ask 0 6 0) .revert ∧
    (writeBank defaultBank 0 0 0 2).isSome = true ∧ writeBank defaultBank 0 0 0 3 = none ∧
    writeBank defaultBank 0 16 0 0 = none ∧ writeBank defaultBank 5 0 0 0 = none :=
  ⟨serving_free _ _ _ rfl rfl, serving_free _ _ _ rfl rfl, by decide +kernel⟩

/-- Writes at the ends of signed and unsigned ranges, the values beside them, the first index and field past a table's
last, and the first table past the last. -/
theorem witness_WrittenFieldReadsBack :
    (∀ a ∈ [(0, 15, 2, (0xFF800000 : Word32)), (0, 0, 3, 0x007FFFFF), (4, 0, 1, 240), (1, 7, 13, 1), (1, 0, 10, 255),
        (2, 3, 4, 16383), (3, 7, 1, 1), (1, 7, 5, 0xFFFFFFFF)],
      (writeBank defaultBank a.1 a.2.1 a.2.2.1 a.2.2.2).isSome = true) ∧
    (∀ a ∈ [(0, 15, 2, (0xFF7FFFFF : Word32)), (0, 0, 3, 0x00800000), (4, 0, 1, 241), (4, 0, 1, 15), (1, 7, 13, 0),
        (1, 0, 10, 4), (2, 3, 4, 16384), (3, 7, 1, 2), (0, 16, 0, 0), (1, 8, 0, 0), (2, 4, 0, 0), (3, 8, 0, 0), (4, 1, 0, 1),
        (0, 0, 6, 0), (1, 0, 16, 0), (2, 0, 5, 0), (3, 0, 2, 0), (4, 0, 3, 0), (5, 0, 0, 0)],
      (writeBank defaultBank a.1 a.2.1 a.2.2.1 a.2.2.2).isSome = false) ∧
    readBank defaultBank 1 7 15 = some 0 ∧ readBank defaultBank 1 7 16 = none ∧ readBank defaultBank 1 8 15 = none := by
  decide +kernel

/-- A bank with channel 4 OUTSIDE from 700 to 500, and profile 0 one round longer than its limit. -/
def twoFaults : Bank :=
  let e : ChannelEntry :=
    { mode := .gate, condition := .outside, levelA := 700, levelB := 500, hysteresis := 0, qualify := 1 }
  { defaultBank with
    channels := defaultBank.channels.set 4 e
    profiles := defaultBank.profiles.set 0 { profile0 with limit := 7 } }

/-- Counts 65,535 and 65,536; a matching and another count; a bank that fails one check, one that fails several, and one
that passes. -/
theorem witness_CommitChecksThenStarts :
    Serving (serving .opened (ask 0 7 0)) (ask 0 7 0) .commit ∧ 65535 < (ask 0 7 65536).value.toNat ∧
    (ask 0 7 65535).value.toNat ≤ 65535 ∧ (ask 0 7 0).value.toNat = (serving .opened (ask 0 7 0)).agent.writeCount ∧
    (ask 0 7 1).value.toNat ≠ (serving .opened (ask 0 7 1)).agent.writeCount ∧ firstFault (bank86 150) = some (2, 0, 4) ∧
    firstFault (bank86 100) = none ∧ failing twoFaults = [(1, 0, 4), (2, 0, 4), (6, 2, 0)] ∧
    firstFault twoFaults = some (1, 0, 4) := ⟨serving_free _ _ _ rfl rfl, by decide +kernel⟩

/-- The last report of each kind, and one that is not the last. -/
theorem witness_CommitCompletesWithLastReport :
    (∀ e l m p, (committed e l m p).agent.committing = true ∧ (committed e l m p).agent.fifo.head? = some (ask 0 7 5) ∧
      (committed e l m p).agent.engineAcked = e ∧ (committed e l m p).agent.linesAcked = l ∧
      (committed e l m p).agent.markRound = m ∧ (committed e l m p).paths = p) :=
  fun _ _ _ _ => ⟨rfl, rfl, rfl, rfl, rfl, rfl⟩

/-- Masks of 255 and 256, entries 7 and 8, line values 2 and 3; a dispatch and an acknowledgement to take. -/
theorem witness_DirectRequestsServed :
    Serving (serving .opened (ask 0 8 255)) (ask 0 8 255) .arm ∧ Serving (serving .opened (ask 0 9 256)) (ask 0 9 256) .disarm ∧
    Serving (serving .opened (ask 0 10 0)) (ask 0 10 0) .fire ∧ Serving (serving .opened (ask 0 11 2)) (ask 0 11 2) .line ∧
    (7#8).toNat = (7 : Fin 8).val ∧ ¬ (8#8).toNat ≤ 7 ∧ ¬ (ask 0 11 3).value.toNat ≤ 2 ∧
    (∀ ph, ({ (serving .opened (ask 0 8 255)) with agent := { resetAgent with fifo := [ask 0 8 255], phase := ph } } :
      State).agent.phase = ph) :=
  ⟨serving_free _ _ _ rfl rfl, serving_free _ _ _ rfl rfl, serving_free _ _ _ rfl rfl, serving_free _ _ _ rfl rfl,
    by decide, by decide, by decide, fun _ => rfl⟩

theorem witness_CountersClearedNodeReset :
    Serving (serving .opened (ask 0 12 0)) (ask 0 12 0) .clearCounters ∧
    Serving (serving .opened (ask 0 13 0)) (ask 0 13 0) .nodeReset ∧ resetHalfway.agent.nodeResetting = true ∧
    resetHalfway.agent.fifo.head? = some (ask 0 13 0) ∧ resetHalfway.agent.linesAcked = true ∧
    resetHalfway.agent.engineAcked = false := ⟨serving_free _ _ _ rfl rfl, serving_free _ _ _ rfl rfl, by decide +kernel⟩

/-- Front Out free and busy; a relay that waits for it, and none. -/
theorem witness_FrontRequestsRelayed :
    AtService (serving .opened (ask 1 0x55 0)) (ask 1 0x55 0) ∧ (serving .opened (ask 1 0x55 0)).agent.session = .opened ∧
    (serving .opened (ask 1 0x55 0)).frontOut = none ∧
    ({ serving .opened (ask 1 0x55 0) with frontOut := some 9 } : State).frontOut ≠ none ∧
    State.reset.agent.phase ≠ .dispatching ∧ State.reset.clock.refclk = true :=
  ⟨⟨rfl, rfl, rfl, rfl⟩, rfl, rfl, by decide, by decide, rfl⟩

/-- The items of a READ reply past the last of which the answer is BADARG, each list with how many it has and one item
worked out by hand: the span start of `heldStore`, a closed window's flags SHORT_PRE and GAP, an empty position's flags,
the LOW pin of line 7. -/
theorem witness_item_lists_end_where_table_10_6_ends :
    [(counterItems zeroCounters).length, (historyItems heldStore).length, (windowItems (viewOf State.reset) 5).length,
      (lineItems State.reset.lines 7).length, (occupancyItems resetEgress).length] = [21, 4, 10, 5, 6] ∧
    [(historyItems heldStore)[3]?, (windowItems { viewOf State.reset with windows :=
        [window17 1004 true .closed 5 9 1 true] } 0)[7]?, (windowItems (viewOf State.reset) 5)[7]?,
      (lineItems State.reset.lines 7)[2]?] = [some (600, 0), some (9, 0), some (0, 1), some (0, 0)] := by
  decide +kernel

/-- A READ with any area and block item, in each session state; and the operands where the clauses meet: areas 4 and 5,
block items 6 and 7, indexes 15 and 16, 7 and 8, 5 and 6, and fields 0 and 1. -/
theorem witness_ReadsAnswerTheirArea :
    (∀ (x : Session) (a b : Byte), Serving (serving x { ask 0 4 0 with area := a, table := b })
      { ask 0 4 0 with area := a, table := b } .read) ∧
    ((4#8).toNat ≤ 4 ∧ 4 < (5#8).toNat ∧ (6#8).toNat ≤ 6 ∧ 6 < (7#8).toNat) ∧
    ((15#8).toNat = (15 : Fin 16).val ∧ 16 ≤ (16#8).toNat ∧ (7#8).toNat = (7 : Fin 8).val ∧ 8 ≤ (8#8).toNat ∧
      (5#8).toNat ≤ 5 ∧ 6 ≤ (6#8).toNat) ∧ (0#8).toNat = 0 ∧ 1 ≤ (1#8).toNat :=
  ⟨fun _ _ _ => serving_free _ _ _ rfl rfl, by decide⟩

/-- A counter at its ceiling. -/
theorem witness_CountersNeverDecrease :
    (∃ t, exec (.laneCellDiscard 0 .streamIn none) { State.reset with
        counters := { zeroCounters with streamBadCells := 0xFFFFFFFF } } = .next t ∧
      t.counters.streamBadCells = 0xFFFFFFFF) ∧
    counterAt { zeroCounters with streamBadCells := 0xFFFFFFFF } 0 = some 0xFFFFFFFF := ⟨⟨_, rfl, by decide +kernel⟩, by decide⟩

/-- The node reset of Section 5.10 halfway: the laws hold and a step is taken. -/
theorem witness_EpochLawKept : EpochLaw resetHalfway ∧ ∃ t, step resetHalfway = .next t ∧ t.paths.engineAcks = [.nodeReset] :=
  ⟨resetHalfway_epochLaw, _, rfl, by decide +kernel⟩

theorem witness_ReplyLawKept : ReplyLaw resetHalfway ∧ ∃ t, step resetHalfway = .next t ∧ t.agent.phase = .awaitingAck :=
  ⟨by unfold ReplyLaw repliesOut headKind; decide +kernel, _, rfl, by decide +kernel⟩

/-! ## What the host asks -/

/-- The table gives its rows no bits, so no word spells a command. -/
theorem test_no_word_spells_a_command : decodeTableWord 32 0xFFFFFFFF = none ∧
    State.reset.withFetchWord 32 0xFFFFFFFF = State.reset := ⟨rfl, rfl⟩

/-- R194: a power-on reset of the reset state leaves it as it is. -/
theorem test_power_on_reset_of_the_reset_state :
    leaves .powerOnReset State.reset (fun t => t = State.reset) = true := by decide +kernel

/-- Every command, with every operand, answers a next state on the reset state. -/
theorem test_every_command_completes_on_the_reset_state (c : Instr) : ∃ t, exec c State.reset = .next t := by
  cases c <;> exact ⟨_, rfl⟩

end Sys2Proof.Tests
end

section
/-! The condition tests (R40, R41). The rows of Tables 3-2 and 3-3 come first, one lemma per condition; what the manual
says about the band between the two tests is derived from the rows. -/

namespace Sys2Proof.Machine

/-- 00_scope, Conventions: sample values are signed 24-bit integers. -/
theorem sample_toInt_range (v : Sample) : -8388608 ≤ v.toInt ∧ v.toInt ≤ 8388607 := by
  have lower : -2 ^ 23 ≤ v.toInt := BitVec.le_toInt v
  have upper : v.toInt < 2 ^ 23 := BitVec.toInt_lt
  omega

section Rows

variable {e : ChannelEntry} (x : Int)

theorem tests_of_above (hc : e.condition = .above) :
    (trueTest e x = true ↔ e.levelA.toInt < x) ∧
      (releaseTest e x = true ↔ x ≤ e.levelA.toInt - e.hysteresis) := by
  simp [trueTest, releaseTest, hc]

theorem tests_of_below (hc : e.condition = .below) :
    (trueTest e x = true ↔ x < e.levelA.toInt) ∧
      (releaseTest e x = true ↔ e.levelA.toInt + e.hysteresis ≤ x) := by
  simp [trueTest, releaseTest, hc]

theorem tests_of_outside (hc : e.condition = .outside) :
    (trueTest e x = true ↔ x < e.levelA.toInt ∨ e.levelB.toInt < x) ∧
      (releaseTest e x = true ↔ e.levelA.toInt + e.hysteresis ≤ x ∧ x ≤ e.levelB.toInt - e.hysteresis) := by
  simp [trueTest, releaseTest, hc]

theorem tests_of_inside (hc : e.condition = .inside) :
    (trueTest e x = true ↔ e.levelA.toInt ≤ x ∧ x ≤ e.levelB.toInt) ∧
      (releaseTest e x = true ↔ x < e.levelA.toInt - e.hysteresis ∨ e.levelB.toInt + e.hysteresis < x) := by
  simp [trueTest, releaseTest, hc]

theorem tests_of_riseStep (hc : e.condition = .riseStep) :
    (trueTest e x = true ↔ e.levelA.toInt < x) ∧
      (releaseTest e x = true ↔ x ≤ e.levelA.toInt - e.hysteresis) := by
  simp [trueTest, releaseTest, hc]

theorem tests_of_fallStep (hc : e.condition = .fallStep) :
    (trueTest e x = true ↔ x < -e.levelA.toInt) ∧
      (releaseTest e x = true ↔ -e.levelA.toInt + e.hysteresis ≤ x) := by
  simp [trueTest, releaseTest, hc]

end Rows

/-- Section 3.2: the hysteresis is never negative, so a value that meets the release test of a level condition fails its
true test; without hysteresis no value lies between the two. -/
theorem releaseTest_level {e : ChannelEntry} (hlevel : e.condition ∈ [.above, .below, .outside, .inside]) (x : Int) :
    (releaseTest e x = true → trueTest e x = false) ∧
      (e.hysteresis = 0 → releaseTest e x = !trueTest e x) := by
  rw [@Bool.eq_iff_iff _ (!trueTest e x), Bool.not_eq_true', ← Bool.not_eq_true]
  simp only [List.mem_cons, List.not_mem_nil, or_false] at hlevel
  obtain hc | hc | hc | hc := hlevel
  · obtain ⟨htrue, hrelease⟩ := tests_of_above x hc
    rw [htrue, hrelease]; omega
  · obtain ⟨htrue, hrelease⟩ := tests_of_below x hc
    rw [htrue, hrelease]; omega
  · obtain ⟨htrue, hrelease⟩ := tests_of_outside x hc
    rw [htrue, hrelease]; omega
  · obtain ⟨htrue, hrelease⟩ := tests_of_inside x hc
    rw [htrue, hrelease]; omega

/-- R40: an ABOVE unit whose release bound lies below the sample range does not release. -/
theorem releaseTest_above_of_bound_lt {e : ChannelEntry} (hc : e.condition = .above) (v : Sample)
    (hbound : e.levelA.toInt - e.hysteresis < -8388608) : releaseTest e v.toInt = false := by
  have inRange := sample_toInt_range v
  rw [← Bool.not_eq_true, (tests_of_above _ hc).2]
  omega

/-- R40: a BELOW unit whose release bound lies above the sample range does not release. -/
theorem releaseTest_below_of_lt_bound {e : ChannelEntry} (hc : e.condition = .below) (v : Sample)
    (hbound : 8388607 < e.levelA.toInt + e.hysteresis) : releaseTest e v.toInt = false := by
  have inRange := sample_toInt_range v
  rw [← Bool.not_eq_true, (tests_of_below _ hc).2]
  omega

/-- Settles O18: the rows of the two tables, the band between the tests, and the bounds outside the sample range. -/
theorem conditionTestsFollowTables : Obligations.ConditionTestsFollowTables := by
  intro e v
  refine ⟨fun hc => ?above, fun hc => ?below, tests_of_outside _, tests_of_inside _,
    fun hlevel => releaseTest_level hlevel _, fun y => ⟨tests_of_riseStep y, tests_of_fallStep y⟩⟩
  case above =>
    obtain ⟨htrue, hrelease⟩ := tests_of_above v.toInt hc
    exact ⟨htrue, hrelease, releaseTest_above_of_bound_lt hc v⟩
  case below =>
    obtain ⟨htrue, hrelease⟩ := tests_of_below v.toInt hc
    exact ⟨htrue, hrelease, releaseTest_below_of_lt_bound hc v⟩

end Sys2Proof.Machine
end

section
/-! What leaves the Trigger Table alone: one lemma per operation of the other blocks, in the order of the model's files,
and from them that a command of another block, the power-on reset apart, keeps the table. -/

namespace Sys2Proof.Machine

section TableKept

variable (s : State)

/-! ## The lanes and the Round Assembler -/

@[simp] theorem elapse_table (dt : Nat) : (elapse s dt).table = s.table := by rw [elapse_spec]

theorem onLane_table {f : State → State} (hf : ∀ u, (f u).table = u.table) (dt : Nat) :
    (onLane s dt f).table = s.table := by
  obtain ⟨-, h⟩ | ⟨-, h⟩ := onLane_cases s dt f
  · rw [h, hf, elapse_table]
  · rw [h]

@[simp] theorem discardCell_table (lane : Lane) (cell : Option RawCell) :
    (discardCell lane cell s).table = s.table := by
  unfold discardCell
  split
  · rfl
  · cases lane <;> rfl

@[simp] theorem insertMark_table (e : Epoch) : (insertMark s e).table = s.table := rfl

@[simp] theorem insertPending_table : (insertPending s).table = s.table := by
  unfold insertPending; split <;> rfl

@[simp] theorem closeRound_table (a : InAssembly) (complete : Bool) : (closeRound s a complete).table = s.table := by
  simp [closeRound]

@[simp] theorem closeIncomplete_table : (closeIncomplete s).table = s.table := by
  unfold closeIncomplete; split <;> simp

@[simp] theorem acceptRound_table (n : Round) (declared : ChannelMask) (gap : Nat) (spanStart : Bool) :
    (acceptRound s n declared gap spanStart).table = s.table := by
  unfold acceptRound; dsimp only; split <;> simp

@[simp] theorem asmEvent_table (code : EventCode) (round : Round) (a b : Word32) :
    (asmEvent s code round a b).table = s.table := rfl

@[simp] theorem countLost_table (k : Nat) : (countLost s k).table = s.table := rfl

@[simp] theorem refuseRound_table : (refuseRound s).table = s.table := rfl

@[simp] theorem restartRound_table (old n : Round) (declared : ChannelMask) :
    (restartRound s old n declared).table = s.table := by
  simp [restartRound]

@[simp] theorem forwardRound_table (last n : Round) (declared : ChannelMask) (d : Nat) :
    (forwardRound s last n declared d).table = s.table := by
  unfold forwardRound; split <;> simp

@[simp] theorem resumeRound_table (n : Round) (declared : ChannelMask) (d : Nat) :
    (resumeRound s n declared d).table = s.table := by
  simp [resumeRound]

@[simp] theorem judgeRound_table (n : Round) (declared : ChannelMask) : (judgeRound s n declared).table = s.table := by
  unfold judgeRound
  cases s.asm.stream with
  | down => simp
  | running last => dsimp only; split_ifs <;> simp
  | lost last => dsimp only; split_ifs <;> simp

@[simp] theorem takeSample_table (a : InAssembly) (ch : Fin 16) (value : Sample) :
    (takeSample s a ch value).table = s.table := by
  cases h : s.asm.modes.get ch <;> simp only [takeSample, h] <;> split <;> simp

@[simp] theorem sampleTaken_table (channel low : Byte) (value : Sample) :
    (sampleTaken s channel low value).table = s.table := by
  unfold sampleTaken
  split
  · rfl
  · split
    · rfl
    · split
      · simp
      · rfl

@[simp] theorem streamFallsSilent_table : (streamFallsSilent s).table = s.table := by
  unfold streamFallsSilent; dsimp only; split <;> simp

@[simp] theorem silenceExpires_table : (silenceExpires s).table = s.table := by
  unfold silenceExpires
  split
  · rfl
  · split <;> simp

@[simp] theorem takeCommitStart_table : (takeCommitStart s).table = s.table := by
  unfold takeCommitStart
  split
  · dsimp only; split <;> simp
  · rfl

@[simp] theorem takeNodeResetStart_table : (takeNodeResetStart s).table = s.table := by
  unfold takeNodeResetStart; split <;> rfl

/-! ## The Egress Queue -/

@[simp] theorem admitEvent_table (e : EventCell) : (admitEvent s e).table = s.table := by
  obtain ⟨-, h⟩ | ⟨-, -, h⟩ | ⟨-, -, h⟩ := admitEvent_cases s e <;> rw [h]

@[simp] theorem admitReply_table (c : ReplyCell) : (admitReply s c).table = s.table := rfl

@[simp] theorem takeLiveOffer_table : (takeLiveOffer s).table = s.table := by
  unfold takeLiveOffer admitLive
  split
  · split <;> rfl
  · rfl

@[simp] theorem takeRelayOffer_table : (takeRelayOffer s).table = s.table := by
  unfold takeRelayOffer admitRelay
  split
  · split <;> rfl
  · rfl

@[simp] theorem takeEventOffer_table (source : EventSource) : (takeEventOffer source s).table = s.table := by
  cases source <;> simp only [takeEventOffer] <;> split <;>
    simp [queueTakesAsm, queueTakesTable, queueTakesEvent, queueTakesAgent]

@[simp] theorem takeReplyOffer_table : (takeReplyOffer s).table = s.table := by
  unfold takeReplyOffer offerReply
  split
  · split <;> rfl
  · rfl

@[simp] theorem admitWaiting_table : (admitWaiting s).table = s.table := by
  unfold admitWaiting
  split
  · rfl
  · split <;> rfl

@[simp] theorem startTransmission_table : (startTransmission s).table = s.table := by
  unfold startTransmission startSending
  split
  · split <;> simp
  · rfl

@[simp] theorem completeTransmission_table : (completeTransmission s).table = s.table := by
  unfold completeTransmission; split <;> rfl

@[simp] theorem takeCreditNotice_table : (takeCreditNotice s).table = s.table := by
  unfold takeCreditNotice addCredits
  split
  · dsimp only; split <;> simp
  · rfl

@[simp] theorem takeSettings_table : (takeSettings s).table = s.table := by
  unfold takeSettings; split <;> rfl

/-! ## The Condition Evaluator -/

@[simp] theorem takeRecordEvaluation_table : (takeRecordEvaluation s).table = s.table := by
  unfold takeRecordEvaluation; split <;> rfl

@[simp] theorem takeEvaluatorLost_table : (takeEvaluatorLost s).table = s.table := by
  unfold takeEvaluatorLost; split <;> rfl

@[simp] theorem takeEvaluatorRestart_table : (takeEvaluatorRestart s).table = s.table := by
  unfold takeEvaluatorRestart; split <;> rfl

@[simp] theorem takeEvaluatorMark_table : (takeEvaluatorMark s).table = s.table := by
  unfold takeEvaluatorMark; split <;> rfl

@[simp] theorem takeEvaluatorNodeReset_table : (takeEvaluatorNodeReset s).table = s.table := by
  unfold takeEvaluatorNodeReset; split <;> rfl

/-! ## The Management Agent -/

@[simp] theorem reply_table (q : Request) (result : Result) (value aux : Word32) :
    (reply s q result value aux).table = s.table := rfl

@[simp] theorem bareReply_table (q : Request) (result : Result) : (bareReply s q result).table = s.table := rfl

@[simp] theorem enqueueRequest_table (q : Request) : (enqueueRequest s q).table = s.table := by
  unfold enqueueRequest; split <;> rfl

@[simp] theorem renewArrives_table : (renewArrives s).table = s.table := by
  unfold renewArrives; split <;> rfl

@[simp] theorem creditArrives_table (n : Nat) : (creditArrives s n).table = s.table := by
  unfold creditArrives; split <;> rfl

@[simp] theorem classifyArrival_table (q : Request) : (classifyArrival s q).table = s.table := by
  unfold classifyArrival
  split
  · rfl
  · simp
  · split <;> simp

/-- A service command keeps the table where what it does to its request does. -/
@[simp] theorem serve_table (k : Kind) {act : State → Request → State} (hact : ∀ q, (act s q).table = s.table) :
    (serve s k act).table = s.table := by
  obtain ⟨q, -, -, -, h⟩ | h := serve_cases s k act
  · rw [h, hact]
  · rw [h]

theorem needsSession_table {act : State → Request → State} {q : Request}
    (hact : (act s q).table = s.table) : (needsSession act s q).table = s.table := by
  obtain ⟨-, h⟩ | ⟨-, h⟩ | ⟨-, h⟩ := needsSession_cases act s q
  · rw [h, hact]
  · rw [h, bareReply_table]
  · rw [h, bareReply_table]

@[simp] theorem serveUnknown_table : (serveUnknown s).table = s.table := by
  unfold serveUnknown
  split
  · split <;> rfl
  · rfl

@[simp] theorem openWith_table (l : Nat) : (openWith s l).table = s.table := by
  unfold openWith sendSessionOpen; dsimp only; split <;> rfl

@[simp] theorem serveOpen_table (q : Request) : (serveOpen s q).table = s.table := by
  unfold serveOpen; split_ifs <;> simp

@[simp] theorem serveClose_table (q : Request) : (serveClose s q).table = s.table := rfl

@[simp] theorem serveRenew_table (q : Request) : (serveRenew s q).table = s.table := rfl

@[simp] theorem leaseExpires_table : (leaseExpires s).table = s.table := by
  unfold leaseExpires
  split
  · rfl
  · split <;> rfl

@[simp] theorem serveWrite_table (q : Request) : (serveWrite s q).table = s.table := by
  unfold serveWrite; split <;> rfl

@[simp] theorem serveRevert_table (q : Request) : (serveRevert s q).table = s.table := rfl

@[simp] theorem serveCommit_table (q : Request) : (serveCommit s q).table = s.table := by
  unfold serveCommit
  split_ifs
  · rfl
  · rfl
  · split <;> rfl

@[simp] theorem completeCommit_table : (completeCommit s).table = s.table := by
  unfold completeCommit finishCommit
  split
  · dsimp only; split <;> rfl
  · rfl

@[simp] theorem noteAck_table (source : Acknowledger) : (noteAck s source).table = s.table := by
  cases source <;> rfl

@[simp] theorem takeMarkReport_table : (takeMarkReport s).table = s.table := by
  unfold takeMarkReport; split <;> simp

@[simp] theorem takeMarkAck_table (source : Acknowledger) : (takeMarkAck source s).table = s.table := by
  cases source <;> simp only [takeMarkAck] <;> split <;> simp

@[simp] theorem serveDirect_table (q : Request) : (serveDirect s q).table = s.table := by
  unfold serveDirect; split <;> rfl

@[simp] theorem dispatchNotice_table : (dispatchNotice s).table = s.table := by
  unfold dispatchNotice
  split
  · rename_i notice _; cases notice <;> rfl
  · rfl

@[simp] theorem replyTableAck_table (q : Request) (a : TriggerAck) : (replyTableAck s q a).table = s.table := by
  unfold replyTableAck; split <;> rfl

@[simp] theorem replyLineAck_table (q : Request) (o : LineOutcome) (r : Option Round) :
    (replyLineAck s q o r).table = s.table := by
  cases o <;> rfl

@[simp] theorem takeNoticeAck_table : (takeNoticeAck s).table = s.table := by
  unfold takeNoticeAck; split <;> simp

@[simp] theorem serveClearCounters_table (q : Request) : (serveClearCounters s q).table = s.table := rfl

@[simp] theorem serveNodeReset_table (q : Request) : (serveNodeReset s q).table = s.table := rfl

@[simp] theorem completeNodeReset_table : (completeNodeReset s).table = s.table := by
  unfold completeNodeReset
  split
  · dsimp only; split <;> rfl
  · rfl

@[simp] theorem takeNodeResetAck_table (source : Acknowledger) : (takeNodeResetAck source s).table = s.table := by
  cases source <;> simp only [takeNodeResetAck] <;> split <;> simp

@[simp] theorem relayRequest_table (q : Request) : (relayRequest s q).table = s.table := by
  unfold relayRequest; split <;> rfl

@[simp] theorem serveFront_table : (serveFront s).table = s.table := by
  unfold serveFront
  split
  · split
    · exact needsSession_table _ (relayRequest_table _ _)
    · rfl
  · rfl

@[simp] theorem completeRelay_table : (completeRelay s).table = s.table := by
  unfold completeRelay
  split
  · dsimp only; split <;> rfl
  · rfl

@[simp] theorem serveRead_table (target : ReadTarget) (q : Request) : (serveRead target s q).table = s.table := by
  unfold serveRead; split <;> rfl

/-! ## The History Store -/

@[simp] theorem takeRecordAppend_table : (takeRecordAppend s).table = s.table := by
  unfold takeRecordAppend appendRecord
  split
  · split <;> rfl
  · rfl

@[simp] theorem takeHistoryRestart_table : (takeHistoryRestart s).table = s.table := by
  unfold takeHistoryRestart; split <;> rfl

theorem table_of_execHistoryLostNotice {s t : State} (h : execHistoryLostNotice s = .next t) : t.table = s.table := by
  unfold execHistoryLostNotice at h
  split at h
  · split at h <;> cases h; rfl
  · cases h; rfl

@[simp] theorem takeHistoryMark_table : (takeHistoryMark s).table = s.table := by
  unfold takeHistoryMark; split <;> rfl

@[simp] theorem takeHistoryNodeReset_table : (takeHistoryNodeReset s).table = s.table := by
  unfold takeHistoryNodeReset; split <;> rfl

/-! ## The Output Line Unit -/

@[simp] theorem takeLineStep_table : (takeLineStep s).table = s.table := by
  unfold takeLineStep; split <;> rfl

@[simp] theorem takeLineNotice_table : (takeLineNotice s).table = s.table := by
  unfold takeLineNotice handleLineNotice
  split
  · dsimp only; split <;> rfl
  · rfl

@[simp] theorem takeLineSafeState_table : (takeLineSafeState s).table = s.table := by
  unfold takeLineSafeState; split <;> rfl

@[simp] theorem takeLineSessionOpen_table : (takeLineSessionOpen s).table = s.table := by
  unfold takeLineSessionOpen; split <;> rfl

@[simp] theorem takeLineClose_table : (takeLineClose s).table = s.table := by
  unfold takeLineClose; split <;> rfl

@[simp] theorem takeLineLost_table : (takeLineLost s).table = s.table := by
  unfold takeLineLost; split <;> rfl

@[simp] theorem takeLineRestart_table : (takeLineRestart s).table = s.table := by
  unfold takeLineRestart; split <;> rfl

@[simp] theorem takeLineMark_table : (takeLineMark s).table = s.table := by
  unfold takeLineMark; split <;> rfl

@[simp] theorem takeLineNodeReset_table : (takeLineNodeReset s).table = s.table := by
  unfold takeLineNodeReset; split <;> rfl

/-! ## The Window Engine -/

@[simp] theorem updateWindow_table (id : WindowId) (f : Window → Window) :
    (updateWindow s id f).table = s.table := rfl

@[simp] theorem resumePass_table : (resumePass s).table = s.table := by
  obtain ⟨-, -, -, -, htable, -⟩ := resumePass_leaves s
  exact htable

@[simp] theorem groupEmitted_table (g : List WinSample) : (groupEmitted s g).table = s.table := by
  cases g <;> rfl

@[simp] theorem queueTakesEngine_table (rest : List EngineOffer) : (queueTakesEngine s rest).table = s.table := rfl

@[simp] theorem takeWinHead_table : (takeWinHead s).table = s.table := by
  unfold takeWinHead
  split
  · dsimp only; split <;> simp
  · rfl

@[simp] theorem takeWinGroup_table : (takeWinGroup s).table = s.table := by
  unfold takeWinGroup
  split
  · dsimp only; split <;> simp
  · rfl

@[simp] theorem takeWinTail_table : (takeWinTail s).table = s.table := by
  unfold takeWinTail; split <;> simp

theorem engineEvent_table {act : State → State} (hact : ∀ u, (act u).table = u.table) :
    (engineEvent s act).table = s.table := by
  simp [engineEvent, hact]

/-- An input path of the Window Engine, as its `_cases` lemma gives it: an event that `f` makes of the front item, or
nothing. `after` is the state without that item. -/
theorem table_of_pathEvent {α : Type} {s t : State} {items : List α} {f : α → Option (State → State)}
    {after : List α → State}
    (hcases : (∃ x rest act, s.engine.pass = none ∧ items = x :: rest ∧ f x = some act ∧
      t = engineEvent (after rest) act) ∨ t = s)
    (hafter : ∀ rest, (after rest).table = s.table)
    (hf : ∀ x act, f x = some act → ∀ u, (act u).table = u.table) : t.table = s.table := by
  obtain ⟨x, rest, act, -, -, hx, rfl⟩ | rfl := hcases
  · rw [engineEvent_table _ (hf x act hx), hafter]
  · rfl

@[simp] theorem createWindow_table (q : OpenRequest) : (createWindow s q).table = s.table := by
  unfold createWindow; split <;> rfl

@[simp] theorem extendWindow_table (w : Window) (t : Round) : (extendWindow s w t).table = s.table := by
  unfold extendWindow; split <;> rfl

@[simp] theorem takeOpen_table (q : OpenRequest) : (takeOpen q s).table = s.table := by
  unfold takeOpen
  split
  · rfl
  · split
    · simp
    · rfl
    · simp
    · simp
    · simp

@[simp] theorem takeStored_table (r : Round) : (takeStored r s).table = s.table := by
  unfold takeStored; split <;> rfl

@[simp] theorem takeLost_table (n : Round) : (takeLost n s).table = s.table := by
  unfold takeLost; split <;> rfl

@[simp] theorem takeFlushedRestart_table : (takeFlushedRestart s).table = s.table := by
  unfold takeFlushedRestart; split <;> rfl

@[simp] theorem takeFlushedNodeReset_table : (takeFlushedNodeReset s).table = s.table := by
  unfold takeFlushedNodeReset; split <;> rfl

@[simp] theorem releaseSlot_table (i : WindowId) : (releaseSlot i s).table = s.table := rfl

@[simp] theorem takeEngineSafeState_table : (takeEngineSafeState s).table = s.table := rfl

@[simp] theorem takeEngineSessionOpen_table : (takeEngineSessionOpen s).table = s.table := rfl

@[simp] theorem takeEngineMark_table (e : Epoch) : (takeEngineMark e s).table = s.table := rfl

@[simp] theorem takeEngineNodeReset_table : (takeEngineNodeReset s).table = s.table := rfl

end TableKept

/-! ## Every command of another block -/

/-- Only the Trigger Table's own commands and the power-on reset change the table. -/
theorem exec_keeps_table {c : Instr} {s t : State} (hpower : blockOf c ≠ .power) (htable : blockOf c ≠ .table)
    (h : exec c s = .next t) : t.table = s.table := by
  cases c
  case historyLostNotice => exact table_of_execHistoryLostNotice h
  all_goals obtain rfl := Host.Outcome.next.inj h
  case powerOnReset => exact absurd rfl hpower
  case verdict | armNotice | disarmNotice | fireNotice | triggerSafeState | triggerSessionOpen | triggerClose
      | triggerRestartNotice | triggerLostNotice | triggerEpochMark | triggerNodeResetNotice =>
    exact absurd rfl htable
  case refclkLoss | refclkReturn => rfl
  case laneCellDiscard | roundCell | sampleCell | feReplyRelay | requestArrival =>
    exact onLane_table _ (by simp) _
  case openRequest | windowEpochMark | windowNodeResetNotice =>
    exact table_of_pathEvent (onTablePath_cases s _) (fun _ => rfl) (by rintro (_ | _ | _) _ ⟨⟩ u; simp)
  case storedNotice | overwrittenNotice | flushedRestartNotice | flushedNodeResetNotice | windowLostNotice =>
    exact table_of_pathEvent (onStorePath_cases s _) (fun _ => rfl) (by rintro (_ | _ | _ | _ | _) _ ⟨⟩ u; simp)
  case roomNotice | tailTransmittedNotice =>
    exact table_of_pathEvent (onQueuePath_cases s _) (fun _ => rfl) (by rintro (_ | _) _ ⟨⟩ u; simp)
  case windowSafeState | windowSessionOpen =>
    exact table_of_pathEvent (onAgentPath_cases s _) (fun _ => rfl) (by rintro (_ | _) _ ⟨⟩ u; simp)
  case closeSession | renew | write | revert | commit | arm | disarm | fireRequest | line | clearCounters
      | nodeReset => exact serve_table _ _ fun _ => needsSession_table _ (by simp)
  all_goals simp

end Sys2Proof.Machine
end

section
/-! R79: what arms a DISARMED entry. First the verdict: it leaves a DISARMED entry DISARMED until the chain masks arm,
and these are the masks of the entries that fire. Then the table's other commands, the mark, and the power-on reset. -/

namespace Sys2Proof.Machine

open Stated

/-! ## The verdict -/

/-- R62: the state after the holdoff step is the state an entry is judged in. -/
theorem afterHoldoff_eq_judgedState (e : TriggerEntry) (l : EntryLive) (r : Round) :
    afterHoldoff e l.state r = judgedState e l r := by
  cases h : l.state <;> simp [afterHoldoff, judgedState, h]

/-- R61 to R67: what entry `i` does in a verdict: it fires, or it is left in the state it is judged in. -/
theorem entryResults_get (t : TriggerTable) (v : Verdict) (i : Fin 8) :
    (entryResults t v).get i =
      let m := { t.live.get i with state := judgedState (t.entries.get i) (t.live.get i) v.round }
      if fires t v i then fireEntry i (t.entries.get i) m v.round (t.live.get i).forceMark
      else { live := m, opens := [], lines := [], events := [], chain := 0 } := by
  rw [entryResults, get_ofFn, handleEntry, afterHoldoff_eq_judgedState]
  rfl

/-- R73: the entries that the chain masks arm are those named in the mask of an entry that fires. -/
theorem chained_entryResults (t : TriggerTable) (v : Verdict) (i : Fin 8) :
    chained (entryResults t v) i = chainNamed t v i := by
  have hentry (j : Fin 8) : hasEntry ((entryResults t v).get j).chain i =
      (fires t v j && (t.entries.get j).chainMask.getLsbD i.val) := by
    rw [entryResults_get]
    cases fires t v j <;> simp [hasEntry, fireEntry]
  simp only [chained, chainNamed, hentry]

/-- R62, R68: neither the holdoff step nor a fire arms a DISARMED entry. -/
theorem entryResults_disarmed {t : TriggerTable} (v : Verdict) {i : Fin 8} (h : (t.live.get i).state = .disarmed) :
    ((entryResults t v).get i).live.state = .disarmed := by
  rw [entryResults_get]
  dsimp only
  split <;> simp [fireEntry, judgedState, stateAfterFire, h]

/-- R61, R73: the entries after a verdict: their results, armed where a chain mask names them. -/
theorem handleVerdict_live (s : State) (v : Verdict) (i : Fin 8) :
    (handleVerdict s v).table.live.get i =
      if chainNamed s.table v i then armEntry ((entryResults s.table v).get i).live
      else ((entryResults s.table v).get i).live := by
  simp [handleVerdict, chained_entryResults]

/-- R73: a verdict arms a DISARMED entry by a chain mask only. -/
theorem chainNamed_of_takeVerdict {s : State} {i : Fin 8} (hbefore : (s.table.live.get i).state = .disarmed)
    (hafter : ((takeVerdict s).table.live.get i).state = .armed) :
    ∃ v rest, s.paths.evaluatorToTable = .verdict v :: rest ∧ chainNamed s.table v i = true := by
  unfold takeVerdict at hafter
  split at hafter
  · rename_i v rest hpath
    refine ⟨v, rest, hpath, ?_⟩
    by_contra hnamed
    rw [handleVerdict_live, show (tableTakes s rest).table = s.table from rfl, if_neg hnamed,
      entryResults_disarmed v hbefore] at hafter
    cases hafter
  · rw [hbefore] at hafter; cases hafter

/-! ## The table's other commands -/

section StaysDisarmed

variable {s : State} {i : Fin 8}

/-- A change of the entries that leaves the DISARMED ones DISARMED. -/
theorem changeEntries_disarmed {f : Fin 8 → EntryLive → EntryLive}
    (hf : ∀ l : EntryLive, l.state = .disarmed → (f i l).state = .disarmed)
    (h : (s.table.live.get i).state = .disarmed) : ((changeEntries s f).table.live.get i).state = .disarmed := by
  rw [changeEntries_table, get_ofFn]
  exact hf _ h

theorem answerNotice_table (act : State → State) :
    (answerNotice s act).table = if s.table.held then s.table else (act s).table := by
  unfold answerNotice
  split <;> rfl

theorem answerNotice_disarmed {act : State → State} (h : (s.table.live.get i).state = .disarmed)
    (hact : ((act s).table.live.get i).state = .disarmed) :
    ((answerNotice s act).table.live.get i).state = .disarmed := by
  rw [answerNotice_table]
  split
  · exact h
  · exact hact

theorem takeDisarmNotice_disarmed (h : (s.table.live.get i).state = .disarmed) :
    ((takeDisarmNotice s).table.live.get i).state = .disarmed := by
  unfold takeDisarmNotice
  split
  · refine answerNotice_disarmed h (changeEntries_disarmed (fun l hl => ?_) h)
    split
    · rfl
    · exact hl
  · exact h

theorem takeFireNotice_disarmed (h : (s.table.live.get i).state = .disarmed) :
    ((takeFireNotice s).table.live.get i).state = .disarmed := by
  unfold takeFireNotice
  split
  · refine answerNotice_disarmed h (changeEntries_disarmed (fun l hl => ?_) h)
    split <;> exact hl
  · exact h

theorem takeTriggerSafeState_disarmed (h : (s.table.live.get i).state = .disarmed) :
    ((takeTriggerSafeState s).table.live.get i).state = .disarmed := by
  unfold takeTriggerSafeState
  split
  · simp [setTableHeld, disarmEntry]
  · exact h

theorem takeTriggerSessionOpen_live : (takeTriggerSessionOpen s).table.live = s.table.live := by
  unfold takeTriggerSessionOpen; split <;> rfl

theorem takeTriggerClose_disarmed (h : (s.table.live.get i).state = .disarmed) :
    ((takeTriggerClose s).table.live.get i).state = .disarmed := by
  unfold takeTriggerClose
  split
  · simp [disarmEntry]
  · exact h

theorem takeTriggerRestart_disarmed (h : (s.table.live.get i).state = .disarmed) :
    ((takeTriggerRestart s).table.live.get i).state = .disarmed := by
  unfold takeTriggerRestart
  split
  · simp [clearPreviousVerdict, tableTakes, entryAtRestart, h]
  · exact h

theorem takeTriggerLost_live : (takeTriggerLost s).table.live = s.table.live := by
  unfold takeTriggerLost; split <;> rfl

theorem takeTriggerNodeReset_disarmed (h : (s.table.live.get i).state = .disarmed) :
    ((takeTriggerNodeReset s).table.live.get i).state = .disarmed := by
  unfold takeTriggerNodeReset
  split
  · simp [clearPreviousVerdict, entryAtNodeReset]
  · exact h

/-- R194: every entry is DISARMED after a power-on reset. -/
theorem powerOnReset_disarmed : ((powerOnReset s).table.live.get i).state = .disarmed := by
  show (resetTable.live.get i).state = _
  revert i
  decide

end StaysDisarmed

/-- R83: a mark arms a DISARMED entry only where the entry is changed and its arm at commit is set. -/
theorem adopted_of_takeTriggerMark {s : State} {i : Fin 8} (hbefore : (s.table.live.get i).state = .disarmed)
    (hafter : ((takeTriggerMark s).table.live.get i).state = .armed) :
    s.table.entries.get i ≠ s.agent.staging.triggers.get i ∧
      (s.agent.staging.triggers.get i).armAtCommit = true := by
  unfold takeTriggerMark at hafter
  split at hafter
  · simp only [toLines_table, toEngine_table, tableAdopts, tableTakes, get_ofFn] at hafter
    by_cases hsame : s.table.entries.get i = s.agent.staging.triggers.get i
    · simp [hsame, hbefore] at hafter
    · refine ⟨hsame, ?_⟩
      by_contra harm
      simp [hsame, adoptedEntry, harm] at hafter
  · rw [hbefore] at hafter; cases hafter

/-! ## R79 -/

theorem execTriggerSessionOpen_eq {s : State} {rest : List TriggerNotice}
    (h : s.paths.agentToTable = .sessionOpen :: rest) :
    exec .triggerSessionOpen s = .next { s with
      table := { s.table with held := false }, paths := { s.paths with agentToTable := rest } } := by
  show Host.Outcome.next (takeTriggerSessionOpen s) = _
  rw [takeTriggerSessionOpen, h]
  rfl

/-- A command that arms a DISARMED entry is ARM, a mark that adopts it, or a verdict in which a fire chains to it. -/
theorem arming_causes {c : Instr} {s t : State} (h : exec c s = .next t) {i : Fin 8}
    (hbefore : (s.table.live.get i).state = .disarmed) (hafter : (t.table.live.get i).state = .armed) :
    c = .armNotice ∨
    (c = .triggerEpochMark ∧ s.table.entries.get i ≠ s.agent.staging.triggers.get i ∧
      (s.agent.staging.triggers.get i).armAtCommit = true) ∨
    (c = .verdict ∧ ∃ v rest, s.paths.evaluatorToTable = .verdict v :: rest ∧ chainNamed s.table v i = true) := by
  have stays (hdisarmed : (t.table.live.get i).state = .disarmed) : False := by
    rw [hdisarmed] at hafter; cases hafter
  have other (hpower : blockOf c ≠ .power) (htable : blockOf c ≠ .table) : False :=
    stays (by rw [exec_keeps_table hpower htable h]; exact hbefore)
  cases c
  case armNotice => exact .inl rfl
  case triggerEpochMark =>
    obtain rfl := Host.Outcome.next.inj h
    exact .inr (.inl ⟨rfl, adopted_of_takeTriggerMark hbefore hafter⟩)
  case verdict =>
    obtain rfl := Host.Outcome.next.inj h
    exact .inr (.inr ⟨rfl, chainNamed_of_takeVerdict hbefore hafter⟩)
  all_goals exfalso
  case powerOnReset => cases h; exact stays powerOnReset_disarmed
  case disarmNotice => cases h; exact stays (takeDisarmNotice_disarmed hbefore)
  case fireNotice => cases h; exact stays (takeFireNotice_disarmed hbefore)
  case triggerSafeState => cases h; exact stays (takeTriggerSafeState_disarmed hbefore)
  case triggerSessionOpen => cases h; exact stays (by rw [takeTriggerSessionOpen_live]; exact hbefore)
  case triggerClose => cases h; exact stays (takeTriggerClose_disarmed hbefore)
  case triggerRestartNotice => cases h; exact stays (takeTriggerRestart_disarmed hbefore)
  case triggerLostNotice => cases h; exact stays (by rw [takeTriggerLost_live]; exact hbefore)
  case triggerNodeResetNotice => cases h; exact stays (takeTriggerNodeReset_disarmed hbefore)
  all_goals exact other nofun nofun

/-- Settles O25: the session open by its equation; the three causes by the table's frame and, for its own commands, by
what each leaves of a DISARMED entry. -/
theorem sessionOpenReleasesTable : Obligations.SessionOpenReleasesTable := by
  intro s rest hopen
  refine ⟨execTriggerSessionOpen_eq hopen, fun hheld => ?_, fun c u t h i => arming_causes h⟩
  rw [← hheld]

end Sys2Proof.Machine
end

section
/-! What a command may change: `ChangesOnly` is reflexive and transitive, each operation of a block meets it for that
block, and so does each command. State that belongs to one block is then left alone by every other. -/

namespace Sys2Proof.Machine

/-! ## The relation -/

theorem ChangesOnly.refl (b : Block) (s : State) : ChangesOnly b s s := by cases b <;> exact rfl

/-- Transitivity, the later change first. -/
theorem ChangesOnly.after {b : Block} {s t u : State} (htu : ChangesOnly b t u) (hst : ChangesOnly b s t) :
    ChangesOnly b s u := by
  cases b
  case power => exact Eq.trans htu hst
  all_goals exact Eq.trans htu (by conv_lhs => rw [hst])

theorem ChangesOnly.ite {b : Block} {s t u : State} {p : Prop} [Decidable p] (ht : ChangesOnly b s t)
    (hu : ChangesOnly b s u) : ChangesOnly b s (if p then t else u) := by
  split
  · exact ht
  · exact hu

/-- Only the Output Line Unit's own commands and the power-on reset change the unit. -/
theorem ChangesOnly.lines_eq {b : Block} {s t : State} (h : ChangesOnly b s t) (hpower : b ≠ .power)
    (hlines : b ≠ .lines) : t.lines = s.lines := by
  cases b
  case power => exact absurd rfl hpower
  case lines => exact absurd rfl hlines
  all_goals exact Eq.trans (congrArg State.lines h) rfl

section Operations

variable (s : State)

/-! ## The lanes and the Round Assembler -/

/-- A cell on a lane: the time before it, and then what its block does with it. -/
theorem onLane_changesOnly {b : Block} {f : State → State} {dt : Nat} (helapse : ChangesOnly b s (elapse s dt))
    (hf : ∀ u, ChangesOnly b u (f u)) : ChangesOnly b s (onLane s dt f) := by
  obtain ⟨-, h⟩ | ⟨-, h⟩ := onLane_cases s dt f <;> rw [h]
  · exact (hf _).after helapse
  · exact .refl b s

theorem elapse_changesOnly {b : Block} (hb : b ∈ [.lanes, .assembler, .agent]) (dt : Nat) :
    ChangesOnly b s (elapse s dt) := by
  rw [elapse_spec]
  fin_cases hb <;> exact rfl

theorem discardCell_changesOnly (lane : Lane) (cell : Option RawCell) :
    ChangesOnly .lanes s (discardCell lane cell s) := by
  unfold discardCell countBadCell
  refine .ite (.refl _ s) ?_
  cases lane <;> exact rfl

theorem insertPending_changesOnly : ChangesOnly .assembler s (insertPending s) := by
  unfold insertPending; split <;> exact rfl

theorem closeRound_changesOnly (a : InAssembly) (complete : Bool) :
    ChangesOnly .assembler s (closeRound s a complete) :=
  (insertPending_changesOnly _).after rfl

theorem closeIncomplete_changesOnly : ChangesOnly .assembler s (closeIncomplete s) := by
  unfold closeIncomplete
  split
  · exact rfl
  · exact closeRound_changesOnly s _ _

theorem acceptRound_changesOnly (n : Round) (declared : ChannelMask) (gap : Nat) (spanStart : Bool) :
    ChangesOnly .assembler s (acceptRound s n declared gap spanStart) := by
  unfold acceptRound
  exact .ite ((closeRound_changesOnly _ _ _).after rfl) rfl

theorem restartRound_changesOnly (old n : Round) (declared : ChannelMask) :
    ChangesOnly .assembler s (restartRound s old n declared) :=
  (acceptRound_changesOnly _ _ _ _ _).after rfl

theorem forwardRound_changesOnly (last n : Round) (declared : ChannelMask) (d : Nat) :
    ChangesOnly .assembler s (forwardRound s last n declared d) :=
  .ite (acceptRound_changesOnly _ _ _ _ _) ((acceptRound_changesOnly _ _ _ _ _).after rfl)

theorem resumeRound_changesOnly (n : Round) (declared : ChannelMask) (d : Nat) :
    ChangesOnly .assembler s (resumeRound s n declared d) :=
  (acceptRound_changesOnly _ _ _ _ _).after rfl

theorem judgeRound_changesOnly (n : Round) (declared : ChannelMask) :
    ChangesOnly .assembler s (judgeRound s n declared) := by
  unfold judgeRound
  split
  · exact acceptRound_changesOnly s _ _ _ _
  · exact .ite (forwardRound_changesOnly s _ _ _ _) (.ite rfl (restartRound_changesOnly s _ _ _))
  · exact .ite (resumeRound_changesOnly s _ _ _) (restartRound_changesOnly s _ _ _)

theorem takeSample_changesOnly (a : InAssembly) (ch : Fin 16) (value : Sample) :
    ChangesOnly .assembler s (takeSample s a ch value) := by
  cases h : s.asm.modes.get ch <;> simp only [takeSample, h] <;>
    exact .ite ((closeRound_changesOnly _ _ _).after rfl) rfl

theorem sampleTaken_changesOnly (channel low : Byte) (value : Sample) :
    ChangesOnly .assembler s (sampleTaken s channel low value) := by
  unfold sampleTaken
  split
  · exact rfl
  · split
    · exact rfl
    · exact .ite (takeSample_changesOnly s _ _ _) rfl

theorem streamFallsSilent_changesOnly : ChangesOnly .assembler s (streamFallsSilent s) := by
  unfold streamFallsSilent
  dsimp only
  split
  · exact .after rfl (closeIncomplete_changesOnly s)
  · exact rfl
  · exact rfl

theorem silenceExpires_changesOnly : ChangesOnly .assembler s (silenceExpires s) := by
  unfold silenceExpires
  split
  · exact rfl
  · exact .ite ((streamFallsSilent_changesOnly _).after rfl) rfl

theorem takeCommitStart_changesOnly : ChangesOnly .assembler s (takeCommitStart s) := by
  unfold takeCommitStart
  split
  · dsimp only; split <;> exact rfl
  · exact rfl

/-! ## The Condition Evaluator -/

theorem toTable_changesOnly (x : VerdictItem) : ChangesOnly .evaluator s (toTable s x) := rfl

theorem evaluatorTakes_changesOnly (rest : List PathItem) :
    ChangesOnly .evaluator s (evaluatorTakes s rest) := rfl

theorem evaluateRecord_changesOnly (x : Record) : ChangesOnly .evaluator s (evaluateRecord s x) :=
  (toTable_changesOnly _ _).after rfl

theorem changeUnits_changesOnly (f : Fin 16 → CondUnit → CondUnit) :
    ChangesOnly .evaluator s (changeUnits s f) := rfl

/-- A stream notice: it is taken, changes the units and is passed on. -/
theorem unitsNotice_changesOnly (rest : List PathItem) (f : Fin 16 → CondUnit → CondUnit) (x : VerdictItem) :
    ChangesOnly .evaluator s (toTable (changeUnits (evaluatorTakes s rest) f) x) :=
  (toTable_changesOnly _ _).after ((changeUnits_changesOnly _ _).after (evaluatorTakes_changesOnly _ _))

/-! ## The Trigger Table -/

theorem tableTakes_changesOnly (rest : List VerdictItem) : ChangesOnly .table s (tableTakes s rest) := rfl

theorem toLines_changesOnly (x : LineItem) : ChangesOnly .table s (toLines s x) := rfl

theorem toEngine_changesOnly (xs : List EngineItem) : ChangesOnly .table s (toEngine s xs) := rfl

theorem changeEntries_changesOnly (f : Fin 8 → EntryLive → EntryLive) :
    ChangesOnly .table s (changeEntries s f) := rfl

/-- R81, R84: a notice is taken that changes the entries and clears the previous verdict round. -/
theorem entriesCleared_changesOnly (rest : List VerdictItem) (f : Fin 8 → EntryLive → EntryLive) :
    ChangesOnly .table s (clearPreviousVerdict (changeEntries (tableTakes s rest) f)) :=
  .after rfl ((changeEntries_changesOnly _ _).after (tableTakes_changesOnly _ _))

/-- R74: a direct notice that changes the entries is taken and answered. -/
theorem entriesNotice_changesOnly (rest : List TriggerNotice) (f : Fin 8 → EntryLive → EntryLive) :
    ChangesOnly .table s (answerNotice (tableTakesNotice s rest) fun t => changeEntries t f) := by
  unfold answerNotice
  exact .after rfl (.after (.ite rfl (changeEntries_changesOnly _ f)) rfl)

/-! ## The Output Line Unit -/

theorem linesTake_changesOnly (rest : List LineItem) : ChangesOnly .lines s (linesTake s rest) := rfl

theorem changeLines_changesOnly (f : Fin 8 → LineState → LineState) :
    ChangesOnly .lines s (changeLines s f) := rfl

theorem handleLineNotice_changesOnly (n : Fin 8) (x : LineCommand) :
    ChangesOnly .lines s (handleLineNotice s n x) :=
  .after rfl (.ite (changeLines_changesOnly _ _) rfl)

/-! ## The Egress Queue -/

theorem admitEvent_changesOnly (e : EventCell) : ChangesOnly .queue s (admitEvent s e) := by
  obtain ⟨-, h⟩ | ⟨-, -, h⟩ | ⟨-, -, h⟩ := admitEvent_cases s e <;> rw [h] <;> exact rfl

theorem takeEventOffer_changesOnly (source : EventSource) : ChangesOnly .queue s (takeEventOffer source s) := by
  cases source
  all_goals
    simp only [takeEventOffer]
    split
    · exact (admitEvent_changesOnly _ _).after rfl
    · exact rfl

theorem admitWaiting_changesOnly : ChangesOnly .queue s (admitWaiting s) := by
  unfold admitWaiting
  split
  · exact rfl
  · exact .ite rfl rfl

theorem startSending_changesOnly {c : EgressCell} {q : Egress} :
    ChangesOnly .queue s (startSending s c q) :=
  .after rfl ((admitWaiting_changesOnly _).after rfl)

theorem startTransmission_changesOnly : ChangesOnly .queue s (startTransmission s) := by
  unfold startTransmission
  split
  · exact .ite (startSending_changesOnly s) rfl
  · exact rfl

theorem takeCreditNotice_changesOnly : ChangesOnly .queue s (takeCreditNotice s) := by
  unfold takeCreditNotice
  split
  · exact .ite rfl ((admitEvent_changesOnly _ _).after rfl)
  · exact rfl

/-! ## The Window Engine -/

theorem settleSkips_changesOnly (p : Pass) : ChangesOnly .engine s (setStage (settleSkips s) p .serving) := rfl

/-- R101: each move of a service pass changes the engine, its counters and its paths alone. -/
theorem changesOnly_passMoves : PassMoves (ChangesOnly .engine s) where
  tail _ _ _ h _ _ _ := .after rfl h
  remove _ _ _ h _ _ _ := .after rfl h
  settle _ p h _ _ _ _ := (settleSkips_changesOnly _ p).after h
  done _ _ h _ _ := .after rfl h
  head _ _ _ h _ _ _ _ _ := .after rfl h
  empty _ _ _ h _ _ _ _ _ := .after rfl h
  group _ _ _ _ _ h _ _ _ _ _ := .after rfl h

theorem resumePass_changesOnly : ChangesOnly .engine s (resumePass s) :=
  runPass_keeps (changesOnly_passMoves s) _ s rfl

theorem engineEvent_changesOnly {act : State → State} (hact : ChangesOnly .engine s (act s)) :
    ChangesOnly .engine s (engineEvent s act) :=
  (resumePass_changesOnly _).after (.after rfl hact)

/-- An input path of the Window Engine, as its `_cases` lemma gives it: an event that `f` makes of the front item, or
nothing. `after` is the state without that item. -/
theorem pathEvent_changesOnly {α : Type} {s t : State} {items : List α} {f : α → Option (State → State)}
    {after : List α → State}
    (hcases : (∃ x rest act, s.engine.pass = none ∧ items = x :: rest ∧ f x = some act ∧
      t = engineEvent (after rest) act) ∨ t = s)
    (hafter : ∀ rest, ChangesOnly .engine s (after rest))
    (hf : ∀ x act, f x = some act → ∀ u, ChangesOnly .engine u (act u)) : ChangesOnly .engine s t := by
  obtain ⟨x, rest, act, -, -, hx, rfl⟩ | rfl := hcases
  · exact (engineEvent_changesOnly _ (hf x act hx _)).after (hafter rest)
  · exact .refl _ _

theorem takeWinHead_changesOnly : ChangesOnly .engine s (takeWinHead s) := by
  unfold takeWinHead
  split
  · exact .ite ((resumePass_changesOnly _).after rfl) rfl
  · exact rfl

theorem takeWinGroup_changesOnly : ChangesOnly .engine s (takeWinGroup s) := by
  unfold takeWinGroup
  split
  · rename_i g _ _
    refine .ite ((resumePass_changesOnly _).after ?_) rfl
    cases g <;> exact rfl
  · exact rfl

theorem takeWinTail_changesOnly : ChangesOnly .engine s (takeWinTail s) := by
  unfold takeWinTail
  split
  · exact (resumePass_changesOnly _).after rfl
  · exact rfl

theorem createWindow_changesOnly (q : OpenRequest) : ChangesOnly .engine s (createWindow s q) := .ite rfl rfl

theorem takeOpen_changesOnly (q : OpenRequest) : ChangesOnly .engine s (takeOpen q s) := by
  refine .ite rfl ?_
  split
  · exact .ite rfl rfl
  · exact rfl
  · exact createWindow_changesOnly s q
  · exact createWindow_changesOnly s q
  · exact createWindow_changesOnly s q

theorem takeFlushedRestart_changesOnly : ChangesOnly .engine s (takeFlushedRestart s) := .ite rfl rfl

theorem takeFlushedNodeReset_changesOnly : ChangesOnly .engine s (takeFlushedNodeReset s) :=
  .after rfl (takeFlushedRestart_changesOnly s)

theorem takeStored_changesOnly (r : Round) : ChangesOnly .engine s (takeStored r s) := .ite rfl rfl

theorem takeLost_changesOnly (n : Round) : ChangesOnly .engine s (takeLost n s) := .ite rfl rfl

/-! ## The Management Agent -/

theorem enqueueRequest_changesOnly (q : Request) : ChangesOnly .agent s (enqueueRequest s q) := .ite rfl rfl

theorem classifyArrival_changesOnly (q : Request) : ChangesOnly .agent s (classifyArrival s q) := by
  unfold classifyArrival
  split
  · exact rfl
  · exact enqueueRequest_changesOnly s q
  · split
    · exact .ite rfl rfl
    · exact (enqueueRequest_changesOnly _ q).after (.ite rfl rfl)
    · exact enqueueRequest_changesOnly s q

theorem serve_changesOnly {b : Block} {k : Kind} {act : State → Request → State}
    (hact : ∀ q, ChangesOnly b s (act s q)) : ChangesOnly b s (serve s k act) := by
  obtain ⟨q, -, -, -, h⟩ | h := serve_cases s k act <;> rw [h]
  · exact hact q
  · exact .refl b s

theorem needsSession_changesOnly {b : Block} {act : State → Request → State} {q : Request}
    (hreply : ∀ r, ChangesOnly b s (bareReply s q r)) (hact : ChangesOnly b s (act s q)) :
    ChangesOnly b s (needsSession act s q) := by
  obtain ⟨-, h⟩ | ⟨-, h⟩ | ⟨-, h⟩ := needsSession_cases act s q <;> rw [h]
  · exact hact
  · exact hreply _
  · exact hreply _

/-- A service that needs the session OPEN. -/
theorem sessionService_changesOnly {b : Block} (k : Kind) {act : State → Request → State}
    (hreply : ∀ q r, ChangesOnly b s (bareReply s q r)) (hact : ∀ q, ChangesOnly b s (act s q)) :
    ChangesOnly b s (serve s k (needsSession act)) :=
  serve_changesOnly s fun q => needsSession_changesOnly s (hreply q) (hact q)

theorem serveUnknown_changesOnly : ChangesOnly .agent s (serveUnknown s) := by
  unfold serveUnknown
  split
  · exact .ite rfl rfl
  · exact rfl

theorem serveOpen_changesOnly (q : Request) : ChangesOnly .agent s (serveOpen s q) := by
  have hnotices : ChangesOnly .agent s (sendSessionOpen s) := .ite rfl rfl
  exact .ite rfl (.ite rfl (.after rfl hnotices))

theorem leaseExpires_changesOnly : ChangesOnly .agent s (leaseExpires s) := by
  unfold leaseExpires
  split
  · exact rfl
  · exact .ite rfl rfl

theorem serveWrite_changesOnly (q : Request) : ChangesOnly .agent s (serveWrite s q) := by
  unfold serveWrite; split <;> exact rfl

theorem serveCommit_changesOnly (q : Request) : ChangesOnly .agent s (serveCommit s q) := by
  refine .ite rfl (.ite rfl ?_)
  split <;> exact rfl

theorem completeCommit_changesOnly : ChangesOnly .agent s (completeCommit s) := by
  refine .ite ?_ rfl
  unfold finishCommit
  dsimp only
  split <;> exact rfl

theorem takeMarkReport_changesOnly : ChangesOnly .agent s (takeMarkReport s) := by
  unfold takeMarkReport
  split
  · exact (completeCommit_changesOnly _).after rfl
  · exact rfl

theorem takeMarkAck_changesOnly (source : Acknowledger) : ChangesOnly .agent s (takeMarkAck source s) := by
  cases source
  all_goals
    simp only [takeMarkAck]
    split
    · exact (completeCommit_changesOnly _).after rfl
    · exact rfl

theorem serveDirect_changesOnly (q : Request) : ChangesOnly .agent s (serveDirect s q) := by
  unfold serveDirect; split <;> exact rfl

theorem dispatchNotice_changesOnly : ChangesOnly .agent s (dispatchNotice s) := by
  unfold dispatchNotice
  split
  · rename_i x _; cases x <;> exact rfl
  · exact rfl

theorem replyLineAck_changesOnly (q : Request) (o : LineOutcome) (r : Option Round) :
    ChangesOnly .agent s (replyLineAck s q o r) := by
  cases o <;> exact rfl

theorem takeNoticeAck_changesOnly : ChangesOnly .agent s (takeNoticeAck s) := by
  unfold takeNoticeAck
  split
  · exact .ite rfl rfl
  · exact (replyLineAck_changesOnly _ _ _ _).after rfl
  · exact rfl

theorem completeNodeReset_changesOnly : ChangesOnly .agent s (completeNodeReset s) := by
  refine .ite ?_ rfl
  dsimp only
  split <;> exact rfl

theorem takeNodeResetAck_changesOnly (source : Acknowledger) : ChangesOnly .agent s (takeNodeResetAck source s) := by
  cases source
  all_goals
    simp only [takeNodeResetAck]
    split
    · exact (completeNodeReset_changesOnly _).after rfl
    · exact rfl

theorem relayRequest_changesOnly (q : Request) : ChangesOnly .agent s (relayRequest s q) := by
  unfold relayRequest; split <;> exact rfl

theorem serveFront_changesOnly : ChangesOnly .agent s (serveFront s) := by
  unfold serveFront
  split
  · exact .ite (needsSession_changesOnly s (fun _ => rfl) (relayRequest_changesOnly s _)) rfl
  · exact rfl

theorem completeRelay_changesOnly : ChangesOnly .agent s (completeRelay s) := by
  unfold completeRelay
  split
  · dsimp only; split <;> exact rfl
  · exact rfl

theorem serveRead_changesOnly (target : ReadTarget) (q : Request) :
    ChangesOnly .agent s (serveRead target s q) := .ite rfl rfl

end Operations

section Commands

/-! ## The commands of each block -/

variable {c : Instr} {s t : State}

theorem clock_changesOnly (hc : blockOf c = .clock) (h : exec c s = .next t) : ChangesOnly .clock s t := by
  cases c <;> cases hc
  case refclkLoss | refclkReturn => cases h; exact rfl

theorem lanes_changesOnly (hc : blockOf c = .lanes) (h : exec c s = .next t) : ChangesOnly .lanes s t := by
  cases c <;> cases hc
  case laneCellDiscard dt lane cell =>
    obtain rfl := Host.Outcome.next.inj h
    exact onLane_changesOnly s (elapse_changesOnly s (by simp) dt) (discardCell_changesOnly · lane cell)

theorem assembler_changesOnly (hc : blockOf c = .assembler) (h : exec c s = .next t) :
    ChangesOnly .assembler s t := by
  have helapse (dt : Nat) : ChangesOnly .assembler s (elapse s dt) := elapse_changesOnly s (by simp) dt
  cases c <;> cases hc
  all_goals obtain rfl := Host.Outcome.next.inj h
  case roundCell dt number declared =>
    exact onLane_changesOnly s (helapse dt) fun u =>
      (judgeRound_changesOnly _ number declared).after (closeIncomplete_changesOnly u)
  case sampleCell dt channel low value =>
    exact onLane_changesOnly s (helapse dt) (sampleTaken_changesOnly · channel low value)
  case feReplyRelay dt body => exact onLane_changesOnly s (helapse dt) fun _ => rfl
  case silenceExpiry => exact silenceExpires_changesOnly s
  case commitStart => exact takeCommitStart_changesOnly s
  case nodeResetStart => unfold takeNodeResetStart; split <;> exact rfl

theorem execHistoryLostNotice_changesOnly (h : execHistoryLostNotice s = .next t) :
    ChangesOnly .store s t := by
  unfold execHistoryLostNotice at h
  split at h
  · split at h <;> cases h; exact rfl
  · cases h; exact rfl

theorem store_changesOnly (hc : blockOf c = .store) (h : exec c s = .next t) : ChangesOnly .store s t := by
  cases c <;> cases hc
  case historyLostNotice => exact execHistoryLostNotice_changesOnly h
  all_goals obtain rfl := Host.Outcome.next.inj h
  case recordAppend =>
    unfold takeRecordAppend
    split
    · exact .ite rfl rfl
    · exact rfl
  case historyRestartNotice => unfold takeHistoryRestart; split <;> exact rfl
  case historyEpochMark => unfold takeHistoryMark; split <;> exact rfl
  case historyNodeResetNotice => unfold takeHistoryNodeReset; split <;> exact rfl

theorem evaluator_changesOnly (hc : blockOf c = .evaluator) (h : exec c s = .next t) :
    ChangesOnly .evaluator s t := by
  cases c <;> cases hc
  all_goals obtain rfl := Host.Outcome.next.inj h
  case recordEvaluation =>
    unfold takeRecordEvaluation
    split
    · exact (evaluateRecord_changesOnly _ _).after (evaluatorTakes_changesOnly _ _)
    · exact rfl
  case evaluatorLostNotice =>
    unfold takeEvaluatorLost
    split
    · exact unitsNotice_changesOnly s _ _ _
    · exact rfl
  case evaluatorRestartNotice =>
    unfold takeEvaluatorRestart
    split
    · exact unitsNotice_changesOnly s _ _ _
    · exact rfl
  case evaluatorEpochMark =>
    unfold takeEvaluatorMark
    split
    · exact (toTable_changesOnly _ _).after (.after rfl (evaluatorTakes_changesOnly _ _))
    · exact rfl
  case evaluatorNodeResetNotice =>
    unfold takeEvaluatorNodeReset
    split
    · exact unitsNotice_changesOnly s _ _ _
    · exact rfl

theorem table_changesOnly (hc : blockOf c = .table) (h : exec c s = .next t) : ChangesOnly .table s t := by
  cases c <;> cases hc
  all_goals obtain rfl := Host.Outcome.next.inj h
  case verdict => unfold takeVerdict; split <;> exact rfl
  case armNotice =>
    unfold takeArmNotice
    split
    · exact entriesNotice_changesOnly s _ _
    · exact rfl
  case disarmNotice =>
    unfold takeDisarmNotice
    split
    · exact entriesNotice_changesOnly s _ _
    · exact rfl
  case fireNotice =>
    unfold takeFireNotice
    split
    · exact entriesNotice_changesOnly s _ _
    · exact rfl
  case triggerSafeState =>
    unfold takeTriggerSafeState
    split
    · exact .after rfl ((changeEntries_changesOnly _ _).after rfl)
    · exact rfl
  case triggerSessionOpen => unfold takeTriggerSessionOpen; split <;> exact rfl
  case triggerClose => unfold takeTriggerClose; split <;> exact rfl
  case triggerRestartNotice =>
    unfold takeTriggerRestart
    split
    · exact (toLines_changesOnly _ _).after (entriesCleared_changesOnly s _ _)
    · exact rfl
  case triggerLostNotice => unfold takeTriggerLost; split <;> exact rfl
  case triggerEpochMark =>
    unfold takeTriggerMark
    split
    · exact (toLines_changesOnly _ _).after
        ((toEngine_changesOnly _ _).after (.after rfl (tableTakes_changesOnly _ _)))
    · exact rfl
  case triggerNodeResetNotice =>
    unfold takeTriggerNodeReset
    split
    · exact (toLines_changesOnly _ _).after ((toEngine_changesOnly _ _).after (entriesCleared_changesOnly s _ _))
    · exact rfl

theorem lines_changesOnly (hc : blockOf c = .lines) (h : exec c s = .next t) : ChangesOnly .lines s t := by
  cases c <;> cases hc
  all_goals obtain rfl := Host.Outcome.next.inj h
  case lineStep => unfold takeLineStep; split <;> exact rfl
  case lineNotice =>
    unfold takeLineNotice
    split
    · exact (handleLineNotice_changesOnly _ _ _).after rfl
    · exact rfl
  case lineSafeState => unfold takeLineSafeState; split <;> exact rfl
  case lineSessionOpen => unfold takeLineSessionOpen; split <;> exact rfl
  case lineClose => unfold takeLineClose; split <;> exact rfl
  case lineLostNotice => unfold takeLineLost; split <;> exact rfl
  case lineRestartNotice => unfold takeLineRestart; split <;> exact rfl
  case lineEpochMark => unfold takeLineMark; split <;> exact rfl
  case lineNodeResetNotice =>
    unfold takeLineNodeReset
    split
    · exact .after rfl (.after rfl ((changeLines_changesOnly _ _).after (linesTake_changesOnly _ _)))
    · exact rfl

theorem engine_changesOnly (hc : blockOf c = .engine) (h : exec c s = .next t) : ChangesOnly .engine s t := by
  cases c <;> cases hc
  all_goals obtain rfl := Host.Outcome.next.inj h
  case openRequest =>
    refine pathEvent_changesOnly (onTablePath_cases s _) (fun _ => rfl) ?_
    rintro (q | _ | _) _ ⟨⟩ u
    exact takeOpen_changesOnly u q
  case windowEpochMark | windowNodeResetNotice =>
    refine pathEvent_changesOnly (onTablePath_cases s _) (fun _ => rfl) ?_
    rintro (_ | _ | _) _ ⟨⟩ u
    exact rfl
  case storedNotice | overwrittenNotice | flushedRestartNotice | flushedNodeResetNotice | windowLostNotice =>
    refine pathEvent_changesOnly (onStorePath_cases s _) (fun _ => rfl) ?_
    rintro (_ | _ | _ | _ | _) _ ⟨⟩ u
    simp only [takeStored_changesOnly, takeLost_changesOnly, takeFlushedRestart_changesOnly,
      takeFlushedNodeReset_changesOnly, id, ChangesOnly.refl]
  case roomNotice | tailTransmittedNotice =>
    refine pathEvent_changesOnly (onQueuePath_cases s _) (fun _ => rfl) ?_
    rintro (_ | _) _ ⟨⟩ u
    exact rfl
  case windowSafeState | windowSessionOpen =>
    refine pathEvent_changesOnly (onAgentPath_cases s _) (fun _ => rfl) ?_
    rintro (_ | _) _ ⟨⟩ u
    exact rfl
  case winHeadOffer => exact takeWinHead_changesOnly s
  case winSampleGroupOffer => exact takeWinGroup_changesOnly s
  case winTailOffer => exact takeWinTail_changesOnly s

theorem queue_changesOnly (hc : blockOf c = .queue) (h : exec c s = .next t) : ChangesOnly .queue s t := by
  cases c <;> cases hc
  all_goals obtain rfl := Host.Outcome.next.inj h
  case liveOffer =>
    unfold takeLiveOffer
    split
    · exact .ite rfl rfl
    · exact rfl
  case relayOffer =>
    unfold takeRelayOffer
    split
    · exact .ite rfl rfl
    · exact rfl
  case eventOffer source => exact takeEventOffer_changesOnly s source
  case replyOffer =>
    unfold takeReplyOffer
    split
    · exact .ite rfl rfl
    · exact rfl
  case transmissionStart => exact startTransmission_changesOnly s
  case transmissionCompletion => exact .ite rfl rfl
  case creditNotice => exact takeCreditNotice_changesOnly s
  case settingsAdoption => unfold takeSettings; split <;> exact rfl

theorem agent_changesOnly (hc : blockOf c = .agent) (h : exec c s = .next t) : ChangesOnly .agent s t := by
  have hreply (q : Request) (r : Result) : ChangesOnly .agent s (bareReply s q r) := rfl
  cases c <;> cases hc
  all_goals obtain rfl := Host.Outcome.next.inj h
  case requestArrival dt request =>
    exact onLane_changesOnly s (elapse_changesOnly s (by simp) dt) (classifyArrival_changesOnly · request)
  case unknownKindService => exact serveUnknown_changesOnly s
  case openSession => exact serve_changesOnly s (serveOpen_changesOnly s)
  case closeSession | renew | revert | nodeReset => exact sessionService_changesOnly s _ hreply fun _ => rfl
  case write => exact sessionService_changesOnly s _ hreply (serveWrite_changesOnly s)
  case commit => exact sessionService_changesOnly s _ hreply (serveCommit_changesOnly s)
  case arm | disarm | fireRequest | line => exact sessionService_changesOnly s _ hreply (serveDirect_changesOnly s)
  case readActive | readStaging | readHistory | readStateHistory | readStateCondition | readStateTrigger
      | readStateWindow | readStateLine | readStateEgress | readStateAgent | readCounters =>
    exact serve_changesOnly s (serveRead_changesOnly s _)
  case markRoundReport => exact takeMarkReport_changesOnly s
  case markAck source => exact takeMarkAck_changesOnly s source
  case dispatch => exact dispatchNotice_changesOnly s
  case noticeAck => exact takeNoticeAck_changesOnly s
  case nodeResetAck source => exact takeNodeResetAck_changesOnly s source
  case frontRelay => exact serveFront_changesOnly s
  case feCommandTxComplete => exact completeRelay_changesOnly s
  case leaseExpiry => exact leaseExpires_changesOnly s

theorem clearing_changesOnly (hc : blockOf c = .clearing) (h : exec c s = .next t) : ChangesOnly .clearing s t := by
  cases c <;> cases hc
  case clearCounters =>
    cases h
    exact sessionService_changesOnly s _ (fun _ _ => rfl) fun _ => rfl

/-- Each command changes nothing but what its block may change. -/
theorem exec_changesOnly (h : exec c s = .next t) : ChangesOnly (blockOf c) s t := by
  cases hc : blockOf c
  case power =>
    cases c <;> cases hc
    case powerOnReset => cases h; exact rfl
  case clock => exact clock_changesOnly hc h
  case lanes => exact lanes_changesOnly hc h
  case assembler => exact assembler_changesOnly hc h
  case store => exact store_changesOnly hc h
  case evaluator => exact evaluator_changesOnly hc h
  case table => exact table_changesOnly hc h
  case engine => exact engine_changesOnly hc h
  case lines => exact lines_changesOnly hc h
  case queue => exact queue_changesOnly hc h
  case agent => exact agent_changesOnly hc h
  case clearing => exact clearing_changesOnly hc h

end Commands
end Sys2Proof.Machine
end

section
/-! R121: the pins of a held Output Line Unit, and what ends a hold. -/

namespace Sys2Proof.Machine

/-! ## The level of a pin (R120) -/

theorem opposite_ne (l : Level) : opposite l ≠ l := by cases l <;> decide

theorem pinLevel_held (e : LineEntry) (st : LineState) : pinLevel e st true = e.idle := by simp [pinLevel]

theorem pinLevel_ne_idle_iff (e : LineEntry) (st : LineState) :
    pinLevel e st false ≠ e.idle ↔ e.enable = true ∧ st ≠ .inactive := by
  unfold pinLevel
  split
  · rename_i h
    simpa [opposite_ne] using h
  · rename_i h
    simpa using h

/-! ## The held flag -/

section HeldFlag

variable (s : State)

/-- R125: the safe-state notice sets the flag. -/
theorem takeLineSafeState_held {rest : List LineNotice} (h : s.paths.agentToLines = .safeState :: rest) :
    (takeLineSafeState s).lines.held = true := by
  simp [takeLineSafeState, h, setLinesHeld]

/-- A command for the safe-state notice never clears the flag. -/
theorem takeLineSafeState_stays_held (hheld : s.lines.held = true) : (takeLineSafeState s).lines.held = true := by
  unfold takeLineSafeState
  split
  · rfl
  · exact hheld

/-- R126: LINE_SESSION_OPEN takes a session-open notice or does nothing. -/
theorem takeLineSessionOpen_cases :
    (∃ rest, s.paths.agentToLines = .sessionOpen :: rest) ∨ takeLineSessionOpen s = s := by
  unfold takeLineSessionOpen
  split
  · rename_i rest h; exact .inl ⟨rest, h⟩
  · exact .inr rfl

@[simp] theorem takeLineStep_held : (takeLineStep s).lines.held = s.lines.held := by
  unfold takeLineStep; split <;> rfl

@[simp] theorem takeLineNotice_held : (takeLineNotice s).lines.held = s.lines.held := by
  unfold takeLineNotice handleLineNotice
  split
  · dsimp only; split <;> rfl
  · rfl

@[simp] theorem takeLineClose_held : (takeLineClose s).lines.held = s.lines.held := by
  unfold takeLineClose; split <;> rfl

@[simp] theorem takeLineLost_held : (takeLineLost s).lines.held = s.lines.held := by
  unfold takeLineLost; split <;> rfl

@[simp] theorem takeLineRestart_held : (takeLineRestart s).lines.held = s.lines.held := by
  unfold takeLineRestart; split <;> rfl

@[simp] theorem takeLineMark_held : (takeLineMark s).lines.held = s.lines.held := by
  unfold takeLineMark; split <;> rfl

@[simp] theorem takeLineNodeReset_held : (takeLineNodeReset s).lines.held = s.lines.held := by
  unfold takeLineNodeReset; split <;> rfl

end HeldFlag

/-- Of the unit's own commands only LINE_SESSION_OPEN ends a hold, and that by taking a session-open notice. -/
theorem lines_release {c : Instr} {s t : State} (hc : blockOf c = .lines) (h : exec c s = .next t)
    (hheld : s.lines.held = true) (hfree : t.lines.held = false) :
    c = .lineSessionOpen ∧ ∃ rest, s.paths.agentToLines = .sessionOpen :: rest := by
  have kept (hsame : t.lines.held = s.lines.held) : False := by simp [hsame, hheld] at hfree
  cases c <;> cases hc
  all_goals obtain rfl := Host.Outcome.next.inj h
  case lineSessionOpen =>
    obtain hopen | hsame := takeLineSessionOpen_cases s
    · exact ⟨rfl, hopen⟩
    · exact (kept (by rw [hsame])).elim
  case lineSafeState => exact (kept (by rw [takeLineSafeState_stays_held s hheld, hheld])).elim
  all_goals exact (kept (by simp)).elim

/-- R121: only a power-on reset or the session-open notice ends a hold: the commands of the other blocks leave the unit
alone. -/
theorem hold_ends {c : Instr} {s t : State} (h : exec c s = .next t) (hheld : s.lines.held = true)
    (hfree : t.lines.held = false) :
    c = .powerOnReset ∨ (c = .lineSessionOpen ∧ ∃ rest, s.paths.agentToLines = .sessionOpen :: rest) := by
  by_cases hpower : blockOf c = .power
  · exact .inl (by cases c <;> cases hpower; rfl)
  by_cases hlines : blockOf c = .lines
  · exact .inr (lines_release hlines h hheld hfree)
  have hsame : t.lines = s.lines := (exec_changesOnly h).lines_eq hpower hlines
  rw [hsame, hheld] at hfree
  cases hfree

/-- Settles O38: the safe-state notice by its effect on the flag, the pins by R120, and the end of a hold by what the
unit's own commands do and by the frame of every other block. -/
theorem safeStatePinsStayIdle : Obligations.SafeStatePinsStayIdle := by
  refine ⟨fun s rest hnotice => ⟨takeLineSafeState s, rfl, takeLineSafeState_held s hnotice⟩, fun s n hheld => ?_,
    fun c s t h => hold_ends h, fun s n hfree => ?_⟩
  · rw [pinOf, hheld, pinLevel_held]
  · rw [pinOf, hfree, pinLevel_ne_idle_iff]

end Sys2Proof.Machine
end

section
/-! What a command does to the Egress Queue. `EgressMove` lists the ways in which it changes; `exec_egressMove` says
that every command takes one of them or leaves the queue as it is. -/

namespace Sys2Proof.Machine

/-! ## The ways in which the queue changes -/

/-- R142: the queue `q` once the transmission of `x` has started; `rest` is the queue without it. -/
def sendingFrom (q : Egress) (x : EgressCell) (rest : Egress) : Egress :=
  { rest with sending := some { seq := q.nextSeq, cell := x }, credits := q.credits - 1, nextSeq := q.nextSeq + 1 }

/-- R140: the waiting reply `y` joins the REPLY FIFO. -/
def waitingAdmitted (q : Egress) (y : ReplyCell) : Egress :=
  { q with replies := q.replies ++ [y], waitingReply := none }

/-- R146: the counter after a grant of `n`. -/
def granted (q : Egress) (n : Nat) : Egress := { q with credits := min (q.credits + n) 1023 }

/-- What a command makes of the queue `q`. -/
inductive EgressMove (q : Egress) : Instr → Egress → Prop
  | same (c : Instr) : EgressMove q c q
  | reset : EgressMove q .powerOnReset resetEgress
  | live (x : LiveCell) : occupancy q < q.liveLimit → EgressMove q .liveOffer { q with lives := q.lives ++ [x] }
  | relay (x : RelayBytes) : occupancy q < 240 → EgressMove q .relayOffer { q with relays := q.relays ++ [x] }
  | event (source : EventSource) (x : EventCell) : occupancy q < 250 →
      EgressMove q (.eventOffer source) { q with events := q.events ++ [x] }
  | reply (x : ReplyCell) : occupancy q < 250 → EgressMove q .replyOffer { q with replies := q.replies ++ [x] }
  | wait (x : ReplyCell) : EgressMove q .replyOffer { q with waitingReply := some x }
  | head (x : WinHead) : occupancy q < 240 →
      EgressMove q .winHeadOffer { q with windows := q.windows ++ [.head x] }
  | group (g : List WinSample) : occupancy q + g.length ≤ 240 →
      EgressMove q .winSampleGroupOffer { q with windows := q.windows ++ g.map .sample }
  | tail (x : WinTail) : EgressMove q .winTailOffer { q with windows := q.windows ++ [.tail x] }
  | start (x : EgressCell) (rest : Egress) : q.sending = none → 0 < q.credits → chooseCell q = some (x, rest) →
      EgressMove q .transmissionStart (sendingFrom q x rest)
  | startAndReply (x : EgressCell) (rest : Egress) (y : ReplyCell) : q.sending = none → 0 < q.credits →
      chooseCell q = some (x, rest) → occupancy rest < 250 →
      EgressMove q .transmissionStart (waitingAdmitted (sendingFrom q x rest) y)
  | complete : EgressMove q .transmissionCompletion { q with sending := none }
  | credit (n : Nat) : EgressMove q .creditNotice (granted q n)
  | creditEvent (n : Nat) (x : EventCell) : occupancy q < 250 →
      EgressMove q .creditNotice { granted q n with events := q.events ++ [x] }
  | settings (x : QueueSettings) :
      EgressMove q .settingsAdoption { q with liveLimit := x.liveLimit, eventMask := x.eventMask }

theorem EgressMove.of_eq {c : Instr} {q r : Egress} (h : r = q) : EgressMove q c r := h ▸ .same c

/-! ## The Window Engine's events leave the queue alone -/

section EgressKept

variable (s : State)

@[simp] theorem resumePass_egress : (resumePass s).egress = s.egress := by
  obtain ⟨-, -, -, -, -, -, hegress, -⟩ := resumePass_leaves s
  exact hegress

@[simp] theorem updateWindow_egress (id : WindowId) (f : Window → Window) :
    (updateWindow s id f).egress = s.egress := rfl

@[simp] theorem groupEmitted_egress (g : List WinSample) : (groupEmitted s g).egress = s.egress := by
  cases g <;> rfl

@[simp] theorem queueTakesEngine_egress (rest : List EngineOffer) :
    (queueTakesEngine s rest).egress = s.egress := rfl

@[simp] theorem createWindow_egress (q : OpenRequest) : (createWindow s q).egress = s.egress := by
  unfold createWindow; split <;> rfl

@[simp] theorem extendWindow_egress (w : Window) (r : Round) : (extendWindow s w r).egress = s.egress := by
  unfold extendWindow; split <;> rfl

@[simp] theorem takeOpen_egress (q : OpenRequest) : (takeOpen q s).egress = s.egress := by
  unfold takeOpen
  split
  · rfl
  · split
    · exact extendWindow_egress ..
    · rfl
    all_goals exact createWindow_egress ..

@[simp] theorem takeStored_egress (r : Round) : (takeStored r s).egress = s.egress := by
  unfold takeStored; split <;> rfl

@[simp] theorem takeLost_egress (n : Round) : (takeLost n s).egress = s.egress := by
  unfold takeLost; split <;> rfl

@[simp] theorem takeFlushedRestart_egress : (takeFlushedRestart s).egress = s.egress := by
  unfold takeFlushedRestart; split <;> rfl

@[simp] theorem takeFlushedNodeReset_egress : (takeFlushedNodeReset s).egress = s.egress := by
  unfold takeFlushedNodeReset; split <;> rfl

@[simp] theorem releaseSlot_egress (i : WindowId) : (releaseSlot i s).egress = s.egress := rfl

@[simp] theorem takeEngineSafeState_egress : (takeEngineSafeState s).egress = s.egress := rfl

@[simp] theorem takeEngineSessionOpen_egress : (takeEngineSessionOpen s).egress = s.egress := rfl

@[simp] theorem takeEngineMark_egress (e : Epoch) : (takeEngineMark e s).egress = s.egress := rfl

@[simp] theorem takeEngineNodeReset_egress : (takeEngineNodeReset s).egress = s.egress := rfl

/-- An input path of the Window Engine, as its `_cases` lemma gives it: an event that `f` makes of the front item, or
nothing. `after` is the state without that item. -/
theorem egress_of_pathEvent {α : Type} {s t : State} {items : List α} {f : α → Option (State → State)}
    {after : List α → State}
    (hcases : (∃ x rest act, s.engine.pass = none ∧ items = x :: rest ∧ f x = some act ∧
      t = engineEvent (after rest) act) ∨ t = s)
    (hafter : ∀ rest, (after rest).egress = s.egress)
    (hf : ∀ x act, f x = some act → ∀ u, (act u).egress = u.egress) : t.egress = s.egress := by
  obtain ⟨x, rest, act, -, -, hx, rfl⟩ | rfl := hcases
  · simp [engineEvent, hf x act hx, hafter]
  · rfl

end EgressKept

/-! ## The answers to the Window Engine (R138) -/

section Moves

variable (s : State)

theorem takeWinHead_egressMove : EgressMove s.egress .winHeadOffer (takeWinHead s).egress := by
  unfold takeWinHead
  split
  · rename_i x _ _
    dsimp only
    split
    · rename_i hroom
      simpa using EgressMove.head x hroom
    · exact .of_eq (by simp)
  · exact .same _

theorem takeWinGroup_egressMove : EgressMove s.egress .winSampleGroupOffer (takeWinGroup s).egress := by
  unfold takeWinGroup
  split
  · rename_i g _ _
    dsimp only
    split
    · rename_i hroom
      simpa using EgressMove.group g hroom
    · exact .of_eq (by simp)
  · exact .same _

theorem takeWinTail_egressMove : EgressMove s.egress .winTailOffer (takeWinTail s).egress := by
  unfold takeWinTail
  split
  · rename_i x _ _
    simpa using EgressMove.tail x
  · exact .same _

/-! ## The other offers (R136, R137, R139, R140) -/

theorem takeLiveOffer_egressMove : EgressMove s.egress .liveOffer (takeLiveOffer s).egress := by
  unfold takeLiveOffer admitLive
  split
  · split
    · rename_i hroom
      exact .live _ hroom
    · exact .same _
  · exact .same _

theorem takeRelayOffer_egressMove : EgressMove s.egress .relayOffer (takeRelayOffer s).egress := by
  unfold takeRelayOffer admitRelay
  split
  · split
    · rename_i hroom
      exact .relay _ hroom
    · exact .same _
  · exact .same _

/-- R139: an EVENT is admitted below 250, or the queue stays as it is. -/
theorem admitEvent_egress_cases (e : EventCell) :
    (occupancy s.egress < 250 ∧ (admitEvent s e).egress = { s.egress with events := s.egress.events ++ [e] }) ∨
      (admitEvent s e).egress = s.egress := by
  obtain ⟨-, h⟩ | ⟨-, hroom, h⟩ | ⟨-, -, h⟩ := admitEvent_cases s e
  · exact .inr (by rw [h])
  · exact .inl ⟨hroom, by rw [h]⟩
  · exact .inr (by rw [h])

theorem admitEvent_egressMove {q : Egress} (hq : s.egress = q) (source : EventSource) (e : EventCell) :
    EgressMove q (.eventOffer source) (admitEvent s e).egress := by
  subst hq
  obtain ⟨hroom, h⟩ | h := admitEvent_egress_cases s e
  · exact h ▸ .event source e hroom
  · exact .of_eq h

theorem takeEventOffer_egressMove (source : EventSource) :
    EgressMove s.egress (.eventOffer source) (takeEventOffer source s).egress := by
  cases source
  all_goals
    dsimp only [takeEventOffer]
    split
    · exact admitEvent_egressMove _ (by rfl) _ _
    · exact .same _

theorem takeReplyOffer_egressMove : EgressMove s.egress .replyOffer (takeReplyOffer s).egress := by
  unfold takeReplyOffer offerReply
  split
  · split
    · rename_i hroom
      exact .reply _ hroom
    · exact .wait _
  · exact .same _

/-! ## Transmission (R141, R142, R144) -/

/-- R140: what step 6 of a start does to the queue. -/
theorem admitWaiting_egress_cases :
    (∃ y, occupancy s.egress < 250 ∧ (admitWaiting s).egress = waitingAdmitted s.egress y) ∨
      (admitWaiting s).egress = s.egress := by
  unfold admitWaiting
  split
  · exact .inr rfl
  · rename_i y _
    split
    · rename_i hroom
      exact .inl ⟨y, hroom, rfl⟩
    · exact .inr rfl

theorem startSending_egressMove {x : EgressCell} {rest : Egress} (hidle : s.egress.sending = none)
    (hcredit : 0 < s.egress.credits) (hx : chooseCell s.egress = some (x, rest)) :
    EgressMove s.egress .transmissionStart (startSending s x rest).egress := by
  obtain ⟨y, hroom, h⟩ | h := admitWaiting_egress_cases { s with
    egress := sendingFrom s.egress x rest
    counters := { s.counters with cellsTransmitted := raise s.counters.cellsTransmitted 1 } }
  · exact h ▸ EgressMove.startAndReply x rest y hidle hcredit hx hroom
  · exact h ▸ EgressMove.start x rest hidle hcredit hx

theorem startTransmission_egressMove :
    EgressMove s.egress .transmissionStart (startTransmission s).egress := by
  unfold startTransmission
  split
  · rename_i x rest hidle hx
    split
    · rename_i hcredit
      exact startSending_egressMove s hidle hcredit hx
    · exact .same _
  · exact .same _

theorem completeTransmission_egressMove :
    EgressMove s.egress .transmissionCompletion (completeTransmission s).egress := by
  unfold completeTransmission
  split
  · exact .complete
  · exact .same _

/-! ## Credits and settings (R146, R148) -/

theorem addCredits_egressMove (n : Nat) : EgressMove s.egress .creditNotice (addCredits s n).egress := by
  unfold addCredits
  dsimp only
  split
  · exact .credit n
  · obtain ⟨hroom, h⟩ | h := admitEvent_egress_cases { s with egress := granted s.egress n }
      (overflowEvent (s.egress.credits + n - 1023) n)
    · exact h ▸ EgressMove.creditEvent n _ hroom
    · exact h ▸ EgressMove.credit n

theorem takeCreditNotice_egressMove : EgressMove s.egress .creditNotice (takeCreditNotice s).egress := by
  unfold takeCreditNotice
  split
  · rename_i n rest _
    exact addCredits_egressMove { s with paths := { s.paths with credits := rest } } n
  · exact .same _

theorem takeSettings_egressMove : EgressMove s.egress .settingsAdoption (takeSettings s).egress := by
  unfold takeSettings
  split
  · exact .settings _
  · exact .same _

end Moves

/-! ## Every command -/

/-- Only the queue's own commands, the Window Engine's and the power-on reset change the queue. -/
theorem ChangesOnly.egress_eq {b : Block} {s t : State} (h : ChangesOnly b s t) (hpower : b ≠ .power)
    (hengine : b ≠ .engine) (hqueue : b ≠ .queue) : t.egress = s.egress := by
  cases b
  case power => exact absurd rfl hpower
  case engine => exact absurd rfl hengine
  case queue => exact absurd rfl hqueue
  all_goals exact Eq.trans (congrArg State.egress h) rfl

theorem engine_egressMove {c : Instr} {s t : State} (hc : blockOf c = .engine) (h : exec c s = .next t) :
    EgressMove s.egress c t.egress := by
  cases c <;> cases hc
  all_goals obtain rfl := Host.Outcome.next.inj h
  case openRequest | windowEpochMark | windowNodeResetNotice =>
    exact .of_eq (egress_of_pathEvent (onTablePath_cases s _) (fun _ => rfl)
      (by rintro (_ | _ | _) _ ⟨⟩ u; simp))
  case storedNotice | overwrittenNotice | flushedRestartNotice | flushedNodeResetNotice | windowLostNotice =>
    exact .of_eq (egress_of_pathEvent (onStorePath_cases s _) (fun _ => rfl)
      (by rintro (_ | _ | _ | _ | _) _ ⟨⟩ u; simp))
  case roomNotice | tailTransmittedNotice =>
    exact .of_eq (egress_of_pathEvent (onQueuePath_cases s _) (fun _ => rfl)
      (by rintro (_ | _) _ ⟨⟩ u; simp))
  case windowSafeState | windowSessionOpen =>
    exact .of_eq (egress_of_pathEvent (onAgentPath_cases s _) (fun _ => rfl)
      (by rintro (_ | _) _ ⟨⟩ u; simp))
  case winHeadOffer => exact takeWinHead_egressMove s
  case winSampleGroupOffer => exact takeWinGroup_egressMove s
  case winTailOffer => exact takeWinTail_egressMove s

theorem queue_egressMove {c : Instr} {s t : State} (hc : blockOf c = .queue) (h : exec c s = .next t) :
    EgressMove s.egress c t.egress := by
  cases c <;> cases hc
  all_goals obtain rfl := Host.Outcome.next.inj h
  case liveOffer => exact takeLiveOffer_egressMove s
  case relayOffer => exact takeRelayOffer_egressMove s
  case eventOffer source => exact takeEventOffer_egressMove s source
  case replyOffer => exact takeReplyOffer_egressMove s
  case transmissionStart => exact startTransmission_egressMove s
  case transmissionCompletion => exact completeTransmission_egressMove s
  case creditNotice => exact takeCreditNotice_egressMove s
  case settingsAdoption => exact takeSettings_egressMove s

theorem powerOnReset_egress {s t : State} (h : exec .powerOnReset s = .next t) : t.egress = resetEgress := by
  obtain rfl := Host.Outcome.next.inj h
  rfl

/-- Whatever a command does to the Egress Queue is one of the moves. -/
theorem exec_egressMove {c : Instr} {s t : State} (h : exec c s = .next t) : EgressMove s.egress c t.egress := by
  by_cases hpower : blockOf c = .power
  · obtain rfl : c = .powerOnReset := by cases c <;> cases hpower; rfl
    exact powerOnReset_egress h ▸ .reset
  by_cases hengine : blockOf c = .engine
  · exact engine_egressMove hengine h
  by_cases hqueue : blockOf c = .queue
  · exact queue_egressMove hqueue h
  exact .of_eq ((exec_changesOnly h).egress_eq hpower hengine hqueue)

end Sys2Proof.Machine
end

section
/-! R134: the capacity of the Egress Queue, from the tail law and the queue law, and the limits of admission, from the
moves of the queue. -/

namespace Sys2Proof.Machine

/-! ## Capacity -/

/-- A WINDOW cell is a tail or one of the others. -/
theorem length_windows (cs : List WindowCell) :
    cs.length = (cs.filter isDataCell).length + (tailIds cs).length := by
  induction cs with
  | nil => rfl
  | cons x xs ih =>
    cases x
    case tail y =>
      calc xs.length + 1 = (xs.filter isDataCell).length + ((tailIds xs).length + 1) := by omega
        _ = _ := rfl
    all_goals
      calc xs.length + 1 = (xs.filter isDataCell).length + 1 + (tailIds xs).length := by omega
        _ = _ := rfl

theorem occupancy_eq (q : Egress) : occupancy q = cellsButTails q + (tailIds q.windows).length := by
  have := length_windows q.windows
  unfold occupancy cellsButTails
  omega

/-- R111, R134: the tails in the queue are of distinct windows of a list of at most 6. -/
theorem tailIds_length_le {s : State} (h : TailLaw s) : (tailIds s.egress.windows).length ≤ 6 := by
  obtain ⟨⟨hsix, -⟩, hdistinct, howned, -, -⟩ := h
  have hlisted : tailIds s.egress.windows ⊆ windowIds s.engine.windows := by
    intro i hi
    obtain ⟨w, hw, rfl, -⟩ := howned i (List.mem_append_left _ hi)
    exact List.mem_map_of_mem hw
  calc (tailIds s.egress.windows).length
      ≤ (windowIds s.engine.windows).length := (hdistinct.of_append_left.subperm hlisted).length_le
    _ = s.engine.windows.length := List.length_map ..
    _ ≤ 6 := hsix

/-! ## Admission -/

/-- R141: the arbiter takes a cell out of one FIFO and adds none to another. -/
theorem chooseCell_length_le {q rest : Egress} {x : EgressCell} (h : chooseCell q = some (x, rest)) :
    rest.replies.length ≤ q.replies.length ∧ rest.events.length ≤ q.events.length ∧
      (rest.windows.filter isDataCell).length ≤ (q.windows.filter isDataCell).length ∧
      rest.relays.length ≤ q.relays.length ∧ rest.lives.length ≤ q.lives.length := by
  unfold chooseCell at h
  split at h
  case h_3 c cs _ _ hcells =>
    cases h
    refine ⟨le_rfl, le_rfl, ?_, le_rfl, le_rfl⟩
    rw [hcells]
    exact ((List.sublist_cons_self c cs).filter isDataCell).length_le
  case h_6 => cases h
  all_goals
    rename_i hcells
    cases h
    simp [hcells]

/-- R134: a queue `r` that has more cells of a kind than `q` had is within the limit of that kind. -/
def WithinLimits (q r : Egress) : Prop :=
  (q.lives.length < r.lives.length → occupancy r ≤ q.liveLimit ∧ occupancy r ≤ 240) ∧
  (q.relays.length < r.relays.length → occupancy r ≤ 240) ∧
  ((q.windows.filter isDataCell).length < (r.windows.filter isDataCell).length → occupancy r ≤ 240) ∧
  (q.events.length < r.events.length → occupancy r ≤ 250) ∧
  (q.replies.length < r.replies.length → occupancy r ≤ 250)

theorem WithinLimits.of_length_le {q r : Egress} (hlives : r.lives.length ≤ q.lives.length)
    (hrelays : r.relays.length ≤ q.relays.length)
    (hwindows : (r.windows.filter isDataCell).length ≤ (q.windows.filter isDataCell).length)
    (hevents : r.events.length ≤ q.events.length)
    (hreplies : r.replies.length ≤ q.replies.length ∨ occupancy r ≤ 250) : WithinLimits q r := by
  unfold WithinLimits
  omega

/-- An admission is checked against the limit of its kind, a tail is no data cell, and the other moves add nothing, but
for a start that leaves room for the waiting reply. -/
theorem EgressMove.withinLimits {c : Instr} {q r : Egress} (h : EgressMove q c r) (hlimit : q.liveLimit ≤ 240) :
    WithinLimits q r := by
  cases h
  case same | wait | complete | credit | settings =>
    exact .of_length_le le_rfl le_rfl le_rfl le_rfl (.inl le_rfl)
  case reset =>
    exact .of_length_le (Nat.zero_le _) (Nat.zero_le _) (Nat.zero_le _) (Nat.zero_le _) (.inl (Nat.zero_le _))
  case live | relay | event | reply | creditEvent =>
    simp only [WithinLimits, occupancy, granted, List.length_append, List.length_singleton] at *
    omega
  case tail x =>
    exact .of_length_le le_rfl le_rfl (by simp [isDataCell]) le_rfl (.inl le_rfl)
  case head | group =>
    simp only [WithinLimits, occupancy, List.length_append, List.length_map, List.length_singleton] at *
    omega
  case start x rest _ _ hx =>
    obtain ⟨hreplies, hevents, hwindows, hrelays, hlives⟩ := chooseCell_length_le hx
    exact .of_length_le hlives hrelays hwindows hevents (.inl hreplies)
  case startAndReply x rest y _ _ hx hroom =>
    obtain ⟨-, hevents, hwindows, hrelays, hlives⟩ := chooseCell_length_le hx
    refine .of_length_le hlives hrelays hwindows hevents (.inr ?_)
    simp only [occupancy, waitingAdmitted, sendingFrom, List.length_append, List.length_singleton] at hroom ⊢
    omega

/-- Settles O43: the capacity by the two laws, the limits by the move that the command makes of the queue. -/
theorem egressQueueKeepsItsLimits : Obligations.EgressQueueKeepsItsLimits := by
  intro s htail hqueue
  have hsix := tailIds_length_le htail
  obtain ⟨hothers, -, -, ⟨-, hlimit⟩, -⟩ := hqueue
  refine ⟨?_, hsix, fun c t h => (exec_egressMove h).withinLimits hlimit⟩
  rw [occupancy_eq]
  omega

end Sys2Proof.Machine
end

section
/-! R143, R145: the sequence numbers and the credit counter, from the moves of the queue. -/

namespace Sys2Proof.Machine

/-- R143: what a move does to the next number and to the cell in transmission. -/
theorem EgressMove.nextSeq_cases {c : Instr} {q r : Egress} (h : EgressMove q c r) (hc : c ≠ .powerOnReset) :
    (r.nextSeq = q.nextSeq ∧ (r.sending = q.sending ∨ r.sending = none)) ∨
    (c = .transmissionStart ∧ q.sending = none ∧ r.nextSeq = q.nextSeq + 1 ∧
      ∃ x, r.sending = some { seq := q.nextSeq, cell := x }) := by
  cases h
  case reset => exact absurd rfl hc
  case start x _ hidle _ _ => exact .inr ⟨rfl, hidle, rfl, x, rfl⟩
  case startAndReply x _ _ hidle _ _ _ => exact .inr ⟨rfl, hidle, rfl, x, rfl⟩
  case complete => exact .inl ⟨rfl, .inr rfl⟩
  all_goals exact .inl ⟨rfl, .inl rfl⟩

/-- R145, R146: what a move does to the credit counter: a start takes one, a grant adds up to 1,023. -/
theorem EgressMove.credits_cases {c : Instr} {q r : Egress} (h : EgressMove q c r) (hc : c ≠ .powerOnReset) :
    (c = .transmissionStart ∧ r.credits + 1 = q.credits) ∨
    (c = .creditNotice ∧ r.sending = q.sending ∧ ∃ n, r.credits = min (q.credits + n) 1023) ∨
    (r.credits = q.credits ∧ (r.sending = q.sending ∨ r.sending = none)) := by
  cases h
  case reset => exact absurd rfl hc
  case start _ _ _ hcredit _ => exact .inl ⟨rfl, Nat.sub_add_cancel hcredit⟩
  case startAndReply _ _ _ _ hcredit _ _ => exact .inl ⟨rfl, Nat.sub_add_cancel hcredit⟩
  case credit n => exact .inr (.inl ⟨rfl, rfl, n, rfl⟩)
  case creditEvent n _ _ => exact .inr (.inl ⟨rfl, rfl, n, rfl⟩)
  case complete => exact .inr (.inr ⟨rfl, .inr rfl⟩)
  all_goals exact .inr (.inr ⟨rfl, .inl rfl⟩)

/-- R145: within its range the counter rises by a grant only and falls by one at a start only, and no cell is put into
transmission without a credit. -/
theorem EgressMove.credit_law {c : Instr} {q r : Egress} (h : EgressMove q c r) (hc : c ≠ .powerOnReset)
    (hrange : q.credits ≤ 1023) :
    r.credits ≤ 1023 ∧ (q.credits < r.credits → c = .creditNotice) ∧
      (r.credits < q.credits → c = .transmissionStart ∧ r.credits + 1 = q.credits) ∧
      (q.sending = none → r.sending ≠ none →
        c = .transmissionStart ∧ 0 < q.credits ∧ r.credits + 1 = q.credits) := by
  obtain ⟨hstart, hone⟩ | ⟨hnotice, hsending, n, hgrant⟩ | ⟨hsame, hsending⟩ := h.credits_cases hc
  · exact ⟨by omega, by omega, fun _ => ⟨hstart, hone⟩, fun _ _ => ⟨hstart, by omega, hone⟩⟩
  · exact ⟨by omega, fun _ => hnotice, by omega, fun hidle hbusy => absurd (hsending.trans hidle) hbusy⟩
  · refine ⟨by omega, by omega, by omega, fun hidle hbusy => ?_⟩
    obtain hsending | hnone := hsending
    · exact absurd (hsending.trans hidle) hbusy
    · exact absurd hnone hbusy

/-- Settles O44: the values after a power-on reset, and both laws by the move that the command makes of the queue. -/
theorem sequenceAndCreditLaws : Obligations.SequenceAndCreditLaws := by
  refine ⟨⟨fun s t h => ?_, fun c s t h hc => (exec_egressMove h).nextSeq_cases hc⟩,
    fun s t h => ?_, fun c s t h hqueue hc => ?_⟩
  · rw [powerOnReset_egress h]
    exact ⟨rfl, rfl⟩
  · rw [powerOnReset_egress h]
    rfl
  · obtain ⟨-, hrange, -⟩ := hqueue
    exact (exec_egressMove h).credit_law hc hrange

end Sys2Proof.Machine
end

section
/-! R155: the epoch law as two chains of blocks, down which one token at most travels. -/

namespace Sys2Proof.Machine

/-! ## Chains of blocks -/

/-- A block on the way of the tokens: those it has still to take from its own path, and its adopted epoch. -/
structure Stage where
  tokens : List Token
  epoch  : Epoch

/-- The epoch that a block has adopted, with the Agent's at `e` and the tokens `before` still to reach the block. -/
def adopted (e : Epoch) (before : List Token) : Epoch :=
  if before.any (fun x => decide (x ≠ .nodeReset)) then e - 1 else e

/-- The epoch law of one chain: `before` are the tokens still to reach the first of the blocks, `acks` the
acknowledgements behind the last, and `due` what the Agent waits for, with its epoch at `e`. -/
def ChainLaw (e : Epoch) (due acks : List Token) : List Token → List Stage → Prop
  | before, [] => before ++ acks = due
  | before, b :: rest =>
    b.epoch = adopted e (before ++ b.tokens) ∧ ChainLaw e due acks (before ++ b.tokens) rest

/-- The epoch of a block that had adopted `e` once it has taken the token. -/
def Token.adopt (x : Token) (e : Epoch) : Epoch :=
  match x with
  | .mark m => m
  | .nodeReset => e

/-- What a block makes of the tokens `i` in front of it, of those `o` that it has sent, and of its epoch `e`: nothing,
or it takes the first token, adopts it and sends it on. -/
inductive Relay (i o : List Token) (e : Epoch) (i' o' : List Token) (e' : Epoch) : Prop
  | stays (hin : i' = i) (hout : o' = o) (hepoch : e' = e)
  | passes (x : Token) (hin : i = x :: i') (hout : o' = o ++ [x]) (hepoch : e' = x.adopt e)

/-- The tokens of a path to which `y` has been sent. -/
theorem filterMap_sent {α : Type} (f : α → Option Token) (sent : List α) (y : α) :
    (sent ++ [y]).filterMap f = sent.filterMap f ++ (f y).toList := by
  cases hy : f y <;> simp [hy]

/-- A path from which a block takes the front item `x`, whose token by `f`, if it has one, the block sends on. -/
theorem Relay.of_item {α : Type} {f : α → Option Token} {items rest : List α} {x : α} {o o' : List Token}
    {e e' : Epoch} (hitems : items = x :: rest) (hout : o' = o ++ (f x).toList)
    (hepoch : e' = (f x).elim e (·.adopt e)) : Relay (items.filterMap f) o e (rest.filterMap f) o' e' := by
  subst hitems
  cases hx : f x with
  | none => exact .stays (by simp [hx]) (by simpa [hx] using hout) (by simpa [hx] using hepoch)
  | some y => exact .passes y (by simp [hx]) (by simpa [hx] using hout) (by simpa [hx] using hepoch)

section Chain

variable {e : Epoch} {due acks before : List Token} {stages : List Stage}

/-- The tokens that have still to reach some block are due. -/
theorem ChainLaw.before_due (h : ChainLaw e due acks before stages) : before <+: due := by
  induction stages generalizing before with
  | nil => exact ⟨acks, h⟩
  | cons b rest ih => exact (List.prefix_append ..).trans (ih h.2)

/-- What the Agent waits for is nothing, or one token that leaves a block at the Agent's epoch. -/
theorem tokenDue_cases (a : Agent) (acked : Bool) :
    tokenDue a acked = [] ∨ ∃ x : Token, tokenDue a acked = [x] ∧ x.adopt (adopted a.epoch [x]) = a.epoch := by
  unfold tokenDue
  split_ifs
  · exact .inl rfl
  · exact .inr ⟨_, rfl, rfl⟩
  · exact .inr ⟨_, rfl, rfl⟩
  · exact .inl rfl

variable {a : Agent} {acked : Bool}

/-- A token that is due is the only one: nothing stands before or behind it. -/
theorem alone_of_due {l r : List Token} {x : Token} (h : l ++ x :: r <+: tokenDue a acked) :
    l = [] ∧ r = [] ∧ x.adopt (adopted a.epoch [x]) = a.epoch := by
  obtain hnone | ⟨y, hone, hy⟩ := tokenDue_cases a acked
  · simp [hnone] at h
  · rw [hone] at h
    have hlength := h.length_le
    simp only [List.length_append, List.length_cons, List.length_nil] at hlength
    obtain rfl : l = [] := List.length_eq_zero_iff.1 (by omega)
    obtain rfl : r = [] := List.length_eq_zero_iff.1 (by omega)
    obtain rfl : x = y := by simpa using h
    exact ⟨rfl, rfl, hy⟩

/-- A block of the chain relays to the next block. -/
theorem ChainLaw.relay {i o i' o' : List Token} {f f' g : Epoch} (front : List Stage) {rest : List Stage}
    (hr : Relay i o f i' o' f')
    (h : ChainLaw a.epoch (tokenDue a acked) acks before (front ++ ⟨i, f⟩ :: ⟨o, g⟩ :: rest)) :
    ChainLaw a.epoch (tokenDue a acked) acks before (front ++ ⟨i', f'⟩ :: ⟨o', g⟩ :: rest) := by
  induction front generalizing before with
  | cons b front ih => exact ⟨h.1, ih h.2⟩
  | nil =>
    obtain ⟨hf, hg, hrest⟩ := h
    cases hr with
    | stays hin hout hepoch => subst hin hout hepoch; exact ⟨hf, hg, hrest⟩
    | passes x hin hout hepoch =>
      subst hin hout hepoch
      obtain ⟨rfl, hbehind, hadopt⟩ := alone_of_due (by simpa using hrest.before_due)
      obtain ⟨rfl, rfl⟩ := List.append_eq_nil_iff.1 hbehind
      exact ⟨(congrArg x.adopt hf).trans hadopt, hg, hrest⟩

/-- The last block of the chain relays to the acknowledgements. -/
theorem ChainLaw.relay_last {i i' acks' : List Token} {f f' : Epoch} (front : List Stage)
    (hr : Relay i acks f i' acks' f') (h : ChainLaw a.epoch (tokenDue a acked) acks before (front ++ [⟨i, f⟩])) :
    ChainLaw a.epoch (tokenDue a acked) acks' before (front ++ [⟨i', f'⟩]) := by
  induction front generalizing before with
  | cons b front ih => exact ⟨h.1, ih h.2⟩
  | nil =>
    obtain ⟨hf, hdue⟩ := h
    cases hr with
    | stays hin hout hepoch => subst hin hout hepoch; exact ⟨hf, hdue⟩
    | passes x hin hout hepoch =>
      subst hin hout hepoch
      have hahead : before ++ x :: (i' ++ acks) <+: tokenDue a acked := by rw [← hdue]; simp
      obtain ⟨rfl, hbehind, hadopt⟩ := alone_of_due hahead
      obtain ⟨rfl, rfl⟩ := List.append_eq_nil_iff.1 hbehind
      exact ⟨(congrArg x.adopt hf).trans hadopt, hdue⟩

/-- Nothing was due, and the Agent sends out the token `x`: each block is still at the old epoch. -/
theorem ChainLaw.of_none_due {e' : Epoch} {x : Token} (hx : adopted e' [x] = e)
    (h : ChainLaw e [] acks [] stages) : ChainLaw e' [x] acks [x] stages := by
  induction stages with
  | nil => simpa [ChainLaw] using h
  | cons b rest ih =>
    obtain ⟨tokens, epoch⟩ := b
    obtain ⟨hepoch, hrest⟩ := h
    obtain rfl : tokens = [] := by simpa using hrest.before_due
    exact ⟨hepoch.trans hx.symm, ih hrest⟩

/-- A token that the Agent sends out when nothing was due stands in front of the first block. -/
theorem ChainLaw.start {e' f : Epoch} {x : Token} (hx : adopted e' [x] = e)
    (h : ChainLaw e [] acks [] (⟨[], f⟩ :: stages)) : ChainLaw e' [x] acks [] (⟨[x], f⟩ :: stages) :=
  ⟨h.1.trans hx.symm, h.2.of_none_due hx⟩

/-- The Agent takes the acknowledgement it waits for, after which nothing is due on the chain. -/
theorem ChainLaw.acknowledged {x : Token} (h : ChainLaw a.epoch (tokenDue a acked) (x :: acks) before stages) :
    ChainLaw a.epoch [] acks before stages := by
  induction stages generalizing before with
  | cons b rest ih => exact ⟨h.1, ih h.2⟩
  | nil =>
    have hahead : before ++ x :: acks <+: tokenDue a acked := ⟨[], (List.append_nil _).trans h⟩
    obtain ⟨rfl, rfl, -⟩ := alone_of_due hahead
    rfl

end Chain

/-! ## The two chains of the part -/

section State

variable (s : State)

/-- The tokens that the Condition Evaluator has still to take from its own path; the Assembler's are
`beforeAssembler`. -/
def evaluatorTokens : List Token := s.paths.asmToEvaluator.filterMap pathToken

/-- The tokens that the Trigger Table has still to take from its own path. -/
def tableTokens : List Token := s.paths.evaluatorToTable.filterMap verdictToken

/-- The tokens that the Window Engine has still to take from its own path. -/
def engineTokens : List Token := s.paths.tableToEngine.filterMap engineToken

/-- The tokens that the Output Line Unit has still to take from its own path. -/
def lineTokens : List Token := s.paths.tableToLines.filterMap lineToken

/-- The acknowledgements of the Window Engine, due or sent. -/
def engineAckTokens : List Token := (s.engine.ackDue.toList ++ s.paths.engineAcks).map engineAckToken

/-- The acknowledgements that the Output Line Unit has sent. -/
def lineAckTokens : List Token := s.paths.lineAcks.filterMap lineAckToken

/-- The blocks that a token passes before it divides. -/
def commonStages : List Stage :=
  [⟨beforeAssembler s, s.asm.epoch⟩, ⟨evaluatorTokens s, s.evaluator.epoch⟩, ⟨tableTokens s, s.table.epoch⟩]

/-- The chain that ends in the Window Engine. -/
def EngineChain : Prop :=
  ChainLaw s.agent.epoch (tokenDue s.agent s.agent.engineAcked) (engineAckTokens s) []
    (commonStages s ++ [⟨engineTokens s, s.engine.epoch⟩])

/-- The chain that ends in the Output Line Unit. -/
def LinesChain : Prop :=
  ChainLaw s.agent.epoch (tokenDue s.agent s.agent.linesAcked) (lineAckTokens s) []
    (commonStages s ++ [⟨lineTokens s, s.lines.epoch⟩])

/-- The epoch law is the law of the two chains. -/
theorem epochLaw_iff :
    EpochLaw s ↔ (s.agent.committing = true → s.agent.nodeResetting = false) ∧ EngineChain s ∧ LinesChain s := by
  constructor
  · rintro ⟨hone, hengine, hlines, hasm, hevaluator, htable, hengineEpoch, hlinesEpoch⟩
    exact ⟨hone, ⟨hasm, hevaluator, htable, hengineEpoch, hengine⟩,
      ⟨hasm, hevaluator, htable, hlinesEpoch, hlines⟩⟩
  · rintro ⟨hone, ⟨hasm, hevaluator, htable, hengineEpoch, hengine⟩, ⟨-, -, -, hlinesEpoch, hlines⟩⟩
    exact ⟨hone, hengine, hlines, hasm, hevaluator, htable, hengineEpoch, hlinesEpoch⟩

end State

/-! ## What each block does on the chains -/

section Blocks

variable {s t : State}

theorem EpochLaw.of_assembler (h : EpochLaw s) (hframe : ChangesOnly .assembler s t)
    (hr : Relay (beforeAssembler s) (evaluatorTokens s) s.asm.epoch (beforeAssembler t) (evaluatorTokens t)
      t.asm.epoch) : EpochLaw t := by
  obtain ⟨hone, hengine, hlines⟩ := (epochLaw_iff s).1 h
  rw [hframe]
  exact (epochLaw_iff _).2 ⟨hone, hengine.relay [] hr, hlines.relay [] hr⟩

theorem EpochLaw.of_evaluator (h : EpochLaw s) (hframe : ChangesOnly .evaluator s t)
    (hr : Relay (evaluatorTokens s) (tableTokens s) s.evaluator.epoch (evaluatorTokens t) (tableTokens t)
      t.evaluator.epoch) : EpochLaw t := by
  obtain ⟨hone, hengine, hlines⟩ := (epochLaw_iff s).1 h
  rw [hframe]
  exact (epochLaw_iff _).2 ⟨hone, hengine.relay [_] hr, hlines.relay [_] hr⟩

theorem EpochLaw.of_table (h : EpochLaw s) (hframe : ChangesOnly .table s t)
    (hengineRelay : Relay (tableTokens s) (engineTokens s) s.table.epoch (tableTokens t) (engineTokens t)
      t.table.epoch)
    (hlinesRelay : Relay (tableTokens s) (lineTokens s) s.table.epoch (tableTokens t) (lineTokens t)
      t.table.epoch) : EpochLaw t := by
  obtain ⟨hone, hengine, hlines⟩ := (epochLaw_iff s).1 h
  rw [hframe]
  exact (epochLaw_iff _).2 ⟨hone, hengine.relay [_, _] hengineRelay, hlines.relay [_, _] hlinesRelay⟩

theorem EpochLaw.of_engine (h : EpochLaw s) (hframe : ChangesOnly .engine s t)
    (hr : Relay (engineTokens s) (engineAckTokens s) s.engine.epoch (engineTokens t) (engineAckTokens t)
      t.engine.epoch) : EpochLaw t := by
  obtain ⟨hone, hengine, hlines⟩ := (epochLaw_iff s).1 h
  rw [hframe]
  exact (epochLaw_iff _).2 ⟨hone, hengine.relay_last [_, _, _] hr, hlines⟩

theorem EpochLaw.of_lines (h : EpochLaw s) (hframe : ChangesOnly .lines s t)
    (hr : Relay (lineTokens s) (lineAckTokens s) s.lines.epoch (lineTokens t) (lineAckTokens t) t.lines.epoch) :
    EpochLaw t := by
  obtain ⟨hone, hengine, hlines⟩ := (epochLaw_iff s).1 h
  rw [hframe]
  exact (epochLaw_iff _).2 ⟨hone, hengine, hlines.relay_last [_, _, _] hr⟩

end Blocks

end Sys2Proof.Machine
end

section
/-! R155: the commands of the data path keep the epoch law: each block relays a token or leaves its chains alone. -/

namespace Sys2Proof.Machine

/-! ## The lanes and the Round Assembler -/

section Assembler

variable {s : State}

theorem elapse_epochLaw (dt : Nat) (h : EpochLaw s) : EpochLaw (elapse s dt) := by
  rw [elapse_spec]
  exact h

theorem onLane_epochLaw {f : State → State} (dt : Nat) (h : EpochLaw s)
    (hf : ∀ u, EpochLaw u → EpochLaw (f u)) : EpochLaw (onLane s dt f) := by
  obtain ⟨-, heq⟩ | ⟨-, heq⟩ := onLane_cases s dt f <;> rw [heq]
  · exact hf _ (elapse_epochLaw dt h)
  · exact h

/-- A token that the Assembler has still to insert is the only one there. -/
theorem EpochLaw.assembler_alone (h : EpochLaw s) {l r : List Token} {x : Token}
    (hx : beforeAssembler s = l ++ x :: r) : l = [] ∧ r = [] := by
  obtain ⟨-, hengine, -⟩ := (epochLaw_iff s).1 h
  have hahead : beforeAssembler s <+: tokenDue s.agent s.agent.engineAcked := hengine.2.before_due
  rw [hx] at hahead
  obtain ⟨hl, hr, -⟩ := alone_of_due hahead
  exact ⟨hl, hr⟩

/-- A start that the Assembler has still to take is the only token there. -/
theorem EpochLaw.start_alone (h : EpochLaw s) {x : AssemblerStart} {rest : List AssemblerStart}
    (hx : s.paths.agentToAsm = x :: rest) : rest = [] ∧ s.asm.pendingMark = none := by
  have hbefore : beforeAssembler s =
      [] ++ startToken x :: (rest.map startToken ++ s.asm.pendingMark.toList.map Token.mark) := by
    simp [beforeAssembler, hx]
  obtain ⟨-, hrest⟩ := h.assembler_alone hbefore
  simpa using hrest

theorem toBothPaths_epochLaw {x : PathItem} (hx : pathToken x = none) (h : EpochLaw s) :
    EpochLaw (toBothPaths s x) :=
  h.of_assembler rfl (.stays rfl (by simp [evaluatorTokens, hx]) rfl)

/-- R20: the mark that waited is inserted. -/
theorem insertPending_epochLaw (h : EpochLaw s) : EpochLaw (insertPending s) := by
  unfold insertPending
  split
  · exact h
  · rename_i e hmark
    have hbefore : beforeAssembler s = s.paths.agentToAsm.map startToken ++ [Token.mark e] := by
      simp [beforeAssembler, hmark]
    obtain ⟨hstarts, -⟩ := h.assembler_alone hbefore
    refine h.of_assembler rfl (.passes (.mark e) ?_ ?_ rfl)
    · simpa [beforeAssembler, insertMark, hstarts] using hbefore
    · simp [evaluatorTokens, insertMark, pathToken]

theorem closeRound_epochLaw (a : InAssembly) (complete : Bool) (h : EpochLaw s) :
    EpochLaw (closeRound s a complete) := by
  have hrecord := toBothPaths_epochLaw (x := .record (recordOf a complete)) rfl h
  exact insertPending_epochLaw hrecord

theorem closeIncomplete_epochLaw (h : EpochLaw s) : EpochLaw (closeIncomplete s) := by
  unfold closeIncomplete
  split
  · exact h
  · exact closeRound_epochLaw _ _ h

theorem acceptRound_epochLaw (n : Round) (declared : ChannelMask) (gap : Nat) (spanStart : Bool) (h : EpochLaw s) :
    EpochLaw (acceptRound s n declared gap spanStart) :=
  iteInduction (fun _ => closeRound_epochLaw _ _ h) fun _ => h

theorem restartRound_epochLaw (old n : Round) (declared : ChannelMask) (h : EpochLaw s) :
    EpochLaw (restartRound s old n declared) := by
  have hrestart := toBothPaths_epochLaw (x := .restart) rfl h
  exact acceptRound_epochLaw _ _ _ _ hrestart

theorem resumeRound_epochLaw (n : Round) (declared : ChannelMask) (d : Nat) (h : EpochLaw s) :
    EpochLaw (resumeRound s n declared d) := acceptRound_epochLaw _ _ _ _ h

theorem forwardRound_epochLaw (last n : Round) (declared : ChannelMask) (d : Nat) (h : EpochLaw s) :
    EpochLaw (forwardRound s last n declared d) :=
  iteInduction (fun _ => acceptRound_epochLaw _ _ _ _ h) fun _ => acceptRound_epochLaw _ _ _ _ h

theorem judgeRound_epochLaw (n : Round) (declared : ChannelMask) (h : EpochLaw s) :
    EpochLaw (judgeRound s n declared) := by
  unfold judgeRound
  split
  · exact acceptRound_epochLaw _ _ _ _ h
  · split_ifs
    · exact forwardRound_epochLaw _ _ _ _ h
    · exact h
    · exact restartRound_epochLaw _ _ _ h
  · split_ifs
    · exact resumeRound_epochLaw _ _ _ h
    · exact restartRound_epochLaw _ _ _ h

theorem takeSample_epochLaw (a : InAssembly) (ch : Fin 16) (value : Sample) (h : EpochLaw s) :
    EpochLaw (takeSample s a ch value) := by
  cases hmode : s.asm.modes.get ch <;> simp only [takeSample, hmode] <;>
    exact iteInduction (fun _ => closeRound_epochLaw _ _ h) fun _ => h

theorem sampleTaken_epochLaw (channel low : Byte) (value : Sample) (h : EpochLaw s) :
    EpochLaw (sampleTaken s channel low value) := by
  unfold sampleTaken
  split
  · exact h
  · split
    · exact h
    · exact iteInduction (fun _ => takeSample_epochLaw _ _ _ h) fun _ => h

theorem silenceExpires_epochLaw (h : EpochLaw s) : EpochLaw (silenceExpires s) := by
  unfold silenceExpires
  split
  · exact h
  · rename_i e _
    refine iteInduction (fun _ => ?_) fun _ => h
    have hclosed : EpochLaw (closeIncomplete (reach s e)) := closeIncomplete_epochLaw h
    unfold streamFallsSilent
    dsimp only
    split
    · exact toBothPaths_epochLaw (x := .lost) rfl hclosed
    · exact h
    · exact h

/-- R20: the mark of a commit start is inserted, or waits for the round in assembly. -/
theorem takeCommitStart_epochLaw (h : EpochLaw s) : EpochLaw (takeCommitStart s) := by
  unfold takeCommitStart
  split
  · rename_i e rest heq
    obtain ⟨rfl, hnone⟩ := h.start_alone heq
    dsimp only
    split
    · refine h.of_assembler rfl (.passes (.mark e) ?_ ?_ rfl)
      · simp [beforeAssembler, insertMark, heq, hnone, startToken]
      · simp [evaluatorTokens, insertMark, pathToken]
    · refine h.of_assembler rfl (.stays ?_ rfl rfl)
      simp [beforeAssembler, heq, hnone, startToken]
  · exact h

/-- R22: the node-reset notice is inserted. -/
theorem takeNodeResetStart_epochLaw (h : EpochLaw s) : EpochLaw (takeNodeResetStart s) := by
  unfold takeNodeResetStart
  split
  · rename_i rest heq
    obtain ⟨rfl, hnone⟩ := h.start_alone heq
    refine h.of_assembler rfl (.passes .nodeReset ?_ ?_ rfl)
    · simp [beforeAssembler, heq, hnone, startToken]
    · simp [evaluatorTokens, pathToken]
  · exact h

theorem assembler_epochLaw {c : Instr} {t : State} (hc : blockOf c = .assembler) (h : EpochLaw s)
    (ht : exec c s = .next t) : EpochLaw t := by
  cases c <;> cases hc
  all_goals obtain rfl := Host.Outcome.next.inj ht
  case roundCell dt number declared =>
    exact onLane_epochLaw dt h fun _ hu => judgeRound_epochLaw number declared (closeIncomplete_epochLaw hu)
  case sampleCell dt channel low value =>
    exact onLane_epochLaw dt h fun _ => sampleTaken_epochLaw channel low value
  case feReplyRelay dt body => exact onLane_epochLaw dt h fun _ hu => hu
  case silenceExpiry => exact silenceExpires_epochLaw h
  case commitStart => exact takeCommitStart_epochLaw h
  case nodeResetStart => exact takeNodeResetStart_epochLaw h

end Assembler

/-! ## The Condition Evaluator -/

section Evaluator

variable {s : State}

/-- The evaluator takes the front of its path and sends `y` on, which carries the same token, if any. -/
theorem EpochLaw.evaluator_item {t : State} {x : PathItem} {rest : List PathItem} {y : VerdictItem} (h : EpochLaw s)
    (hitems : s.paths.asmToEvaluator = x :: rest) (hframe : ChangesOnly .evaluator s t)
    (hrest : t.paths.asmToEvaluator = rest) (hsent : t.paths.evaluatorToTable = s.paths.evaluatorToTable ++ [y])
    (hy : verdictToken y = pathToken x)
    (hepoch : t.evaluator.epoch = (pathToken x).elim s.evaluator.epoch (·.adopt s.evaluator.epoch)) :
    EpochLaw t := by
  refine h.of_evaluator hframe ?_
  rw [evaluatorTokens, evaluatorTokens, hrest]
  exact .of_item hitems (by rw [tableTokens, hsent, filterMap_sent, hy, tableTokens]) hepoch

theorem evaluator_epochLaw {c : Instr} {t : State} (hc : blockOf c = .evaluator) (h : EpochLaw s)
    (ht : exec c s = .next t) : EpochLaw t := by
  cases c <;> cases hc
  all_goals obtain rfl := Host.Outcome.next.inj ht
  case recordEvaluation =>
    unfold takeRecordEvaluation
    split
    · rename_i heq
      exact h.evaluator_item heq ((evaluateRecord_changesOnly _ _).after (evaluatorTakes_changesOnly _ _))
        rfl rfl rfl (by simp [evaluateRecord, evaluatorTakes, pathToken])
    · exact h
  case evaluatorLostNotice =>
    unfold takeEvaluatorLost
    split
    · rename_i heq
      exact h.evaluator_item heq (unitsNotice_changesOnly s _ _ _) rfl rfl rfl (by simp [evaluatorTakes, pathToken])
    · exact h
  case evaluatorRestartNotice =>
    unfold takeEvaluatorRestart
    split
    · rename_i heq
      exact h.evaluator_item heq (unitsNotice_changesOnly s _ _ _) rfl rfl rfl (by simp [evaluatorTakes, pathToken])
    · exact h
  case evaluatorEpochMark =>
    unfold takeEvaluatorMark
    split
    · rename_i heq
      exact h.evaluator_item heq ((toTable_changesOnly _ _).after (.after rfl (evaluatorTakes_changesOnly _ _)))
        rfl rfl rfl (by simp [evaluatorAdopts, pathToken, Token.adopt])
    · exact h
  case evaluatorNodeResetNotice =>
    unfold takeEvaluatorNodeReset
    split
    · rename_i heq
      exact h.evaluator_item heq (unitsNotice_changesOnly s _ _ _) rfl rfl rfl
        (by simp [evaluatorTakes, pathToken, Token.adopt])
    · exact h

end Evaluator

/-! ## The Trigger Table -/

section Table

variable {s : State}

/-- The table takes the front of its path and sends `sent` to the engine and `y` to the lines, which carry the same
token, if any. -/
theorem EpochLaw.table_item {t : State} {x : VerdictItem} {rest : List VerdictItem} {sent : List EngineItem}
    {y : LineItem} (h : EpochLaw s) (hitems : s.paths.evaluatorToTable = x :: rest) (hframe : ChangesOnly .table s t)
    (hrest : t.paths.evaluatorToTable = rest) (hsent : t.paths.tableToEngine = s.paths.tableToEngine ++ sent)
    (hengine : sent.filterMap engineToken = (verdictToken x).toList)
    (hline : t.paths.tableToLines = s.paths.tableToLines ++ [y]) (hy : lineToken y = verdictToken x)
    (hepoch : t.table.epoch = (verdictToken x).elim s.table.epoch (·.adopt s.table.epoch)) : EpochLaw t := by
  refine h.of_table hframe ?_ ?_ <;> rw [tableTokens, tableTokens, hrest]
  · exact .of_item hitems (by rw [engineTokens, hsent, List.filterMap_append, hengine, engineTokens]) hepoch
  · exact .of_item hitems (by rw [lineTokens, hline, filterMap_sent, hy, lineTokens]) hepoch

/-- R74: a direct notice carries no token. -/
theorem answerNotice_epochLaw {act : State → State} (h : EpochLaw s) (hact : EpochLaw (act s)) :
    EpochLaw (answerNotice s act) := by
  unfold answerNotice
  split
  · exact h
  · exact hact

/-- Open requests carry no token. -/
theorem filterMap_engineToken_requests (qs : List OpenRequest) :
    (qs.map EngineItem.request).filterMap engineToken = [] := by
  simp [engineToken]

theorem table_epochLaw {c : Instr} {t : State} (hc : blockOf c = .table) (h : EpochLaw s)
    (ht : exec c s = .next t) : EpochLaw t := by
  cases c <;> cases hc
  all_goals obtain rfl := Host.Outcome.next.inj ht
  case verdict =>
    unfold takeVerdict
    split
    · rename_i heq
      exact h.table_item heq rfl rfl rfl (filterMap_engineToken_requests _) rfl rfl
        (by simp [handleVerdict, tableTakes, verdictToken])
    · exact h
  case armNotice =>
    unfold takeArmNotice
    split
    · exact answerNotice_epochLaw h h
    · exact h
  case disarmNotice =>
    unfold takeDisarmNotice
    split
    · exact answerNotice_epochLaw h h
    · exact h
  case fireNotice =>
    unfold takeFireNotice
    split
    · exact answerNotice_epochLaw h h
    · exact h
  case triggerSafeState =>
    unfold takeTriggerSafeState
    split
    · rename_i rest _
      have hdisarmed : EpochLaw (changeEntries (tableTakesNotice s rest) fun _ l => disarmEntry l) := h
      exact hdisarmed
    · exact h
  case triggerSessionOpen => unfold takeTriggerSessionOpen; split <;> exact h
  case triggerClose => unfold takeTriggerClose; split <;> exact h
  case triggerRestartNotice =>
    unfold takeTriggerRestart
    split
    · rename_i heq
      exact h.table_item heq ((toLines_changesOnly _ _).after (entriesCleared_changesOnly s _ _)) rfl
        (List.append_nil _).symm rfl rfl rfl (by simp [clearPreviousVerdict, tableTakes, verdictToken])
    · exact h
  case triggerLostNotice =>
    unfold takeTriggerLost
    split
    · rename_i heq
      exact h.table_item heq ((toLines_changesOnly _ _).after (tableTakes_changesOnly _ _)) rfl
        (List.append_nil _).symm rfl rfl rfl rfl
    · exact h
  case triggerEpochMark =>
    unfold takeTriggerMark
    split
    · rename_i heq
      exact h.table_item heq ((toLines_changesOnly _ _).after
        ((toEngine_changesOnly _ _).after (.after rfl (tableTakes_changesOnly _ _)))) rfl rfl rfl rfl rfl
        (by simp [tableAdopts, verdictToken, Token.adopt])
    · exact h
  case triggerNodeResetNotice =>
    unfold takeTriggerNodeReset
    split
    · rename_i heq
      exact h.table_item heq ((toLines_changesOnly _ _).after
        ((toEngine_changesOnly _ _).after (entriesCleared_changesOnly s _ _))) rfl rfl rfl rfl rfl
        (by simp [clearPreviousVerdict, tableTakes, verdictToken, Token.adopt])
    · exact h

end Table

/-! ## The Output Line Unit -/

section Lines

variable {s : State}

/-- The unit takes the front of its path and acknowledges its token, if it has one. -/
theorem EpochLaw.line_item {t : State} {x : LineItem} {rest : List LineItem} {sent : List LineAck} (h : EpochLaw s)
    (hitems : s.paths.tableToLines = x :: rest) (hframe : ChangesOnly .lines s t)
    (hrest : t.paths.tableToLines = rest) (hsent : t.paths.lineAcks = s.paths.lineAcks ++ sent)
    (hacks : sent.filterMap lineAckToken = (lineToken x).toList)
    (hepoch : t.lines.epoch = (lineToken x).elim s.lines.epoch (·.adopt s.lines.epoch)) : EpochLaw t := by
  refine h.of_lines hframe ?_
  rw [lineTokens, lineTokens, hrest]
  exact .of_item hitems (by rw [lineAckTokens, hsent, List.filterMap_append, hacks, lineAckTokens]) hepoch

/-- R124: a LINE notice carries no token, and nor does its acknowledgement. -/
theorem handleLineNotice_epochLaw (n : Fin 8) (c : LineCommand) (h : EpochLaw s) :
    EpochLaw (handleLineNotice s n c) := by
  refine h.of_lines (handleLineNotice_changesOnly s n c) ?_
  unfold handleLineNotice
  dsimp only
  split <;> exact .stays rfl (by simp [lineAckTokens, lineAckToken]) rfl

theorem lines_epochLaw {c : Instr} {t : State} (hc : blockOf c = .lines) (h : EpochLaw s)
    (ht : exec c s = .next t) : EpochLaw t := by
  cases c <;> cases hc
  all_goals obtain rfl := Host.Outcome.next.inj ht
  case lineStep =>
    unfold takeLineStep
    split
    · rename_i heq
      exact h.line_item heq rfl rfl (List.append_nil _).symm rfl rfl
    · exact h
  case lineNotice =>
    unfold takeLineNotice
    split
    · exact handleLineNotice_epochLaw _ _ h
    · exact h
  case lineSafeState =>
    unfold takeLineSafeState
    split
    · rename_i rest _
      have hinactive : EpochLaw (allInactive (linesTakeNotice s rest)) := h
      exact hinactive
    · exact h
  case lineSessionOpen => unfold takeLineSessionOpen; split <;> exact h
  case lineClose => unfold takeLineClose; split <;> exact h
  case lineLostNotice =>
    unfold takeLineLost
    split
    · rename_i heq
      exact h.line_item heq rfl rfl (List.append_nil _).symm rfl rfl
    · exact h
  case lineRestartNotice =>
    unfold takeLineRestart
    split
    · rename_i heq
      exact h.line_item heq rfl rfl (List.append_nil _).symm rfl rfl
    · exact h
  case lineEpochMark =>
    unfold takeLineMark
    split
    · rename_i heq
      exact h.line_item heq rfl rfl rfl rfl rfl
    · exact h
  case lineNodeResetNotice =>
    unfold takeLineNodeReset
    split
    · rename_i heq
      exact h.line_item heq (.after rfl (.after rfl ((changeLines_changesOnly _ _).after (linesTake_changesOnly _ _))))
        rfl rfl rfl rfl
    · exact h

end Lines

/-! ## The Window Engine -/

section Engine

variable {s : State}

/-- A token that the engine has still to take is the only one on its chain. -/
theorem EpochLaw.engine_alone (h : EpochLaw s) {x : Token} {r : List Token} (hx : engineTokens s = x :: r) :
    r = [] ∧ s.engine.ackDue = none ∧ s.paths.engineAcks = [] := by
  obtain ⟨-, hdue, -⟩ := h
  have hahead : beforeTable s ++ x :: (r ++ engineAckTokens s) <+: tokenDue s.agent s.agent.engineAcked := by
    refine ⟨[], Eq.trans ?_ hdue⟩
    rw [List.append_nil, beforeEngine, ← engineTokens, hx, List.append_assoc, List.cons_append, engineAckTokens]
  obtain ⟨-, hbehind, -⟩ := alone_of_due hahead
  simpa [engineAckTokens] using hbehind

/-- One acknowledgement at most is due or sent. -/
theorem EpochLaw.engine_one_ack (h : EpochLaw s) : s.engine.ackDue = none ∨ s.paths.engineAcks = [] := by
  obtain ⟨-, hdue, -⟩ := h
  cases hack : s.engine.ackDue with
  | none => exact .inl rfl
  | some x =>
    have hahead : beforeEngine s ++ engineAckToken x :: s.paths.engineAcks.map engineAckToken <+:
        tokenDue s.agent s.agent.engineAcked := by
      rw [← hdue, hack]
      exact List.prefix_rfl
    obtain ⟨-, hbehind, -⟩ := alone_of_due hahead
    exact .inr (List.map_eq_nil_iff.1 hbehind)

/-- R101: the end of a pass sends the acknowledgement that is due. -/
theorem endPass_epochLaw (h : EpochLaw s) : EpochLaw (endPass s) := by
  refine h.of_engine rfl (.stays rfl ?_ rfl)
  obtain hack | hacks := h.engine_one_ack
  · simp [engineAckTokens, endPass, hack]
  · simp [engineAckTokens, endPass, hacks]

/-- Of the moves of a pass only its end touches an acknowledgement. -/
theorem epochLaw_passMoves : PassMoves EpochLaw where
  tail _ _ _ h _ _ _ := h
  remove _ _ _ h _ _ _ := h
  settle _ _ h _ _ _ _ := h
  done _ _ h _ _ := endPass_epochLaw h
  head _ _ _ h _ _ _ _ _ := h
  empty _ _ _ h _ _ _ _ _ := h
  group _ _ _ _ _ h _ _ _ _ _ := h

theorem resumePass_epochLaw (h : EpochLaw s) : EpochLaw (resumePass s) := runPass_keeps epochLaw_passMoves _ s h

theorem engineEvent_epochLaw {act : State → State} (h : EpochLaw (act s)) : EpochLaw (engineEvent s act) := by
  unfold engineEvent
  exact resumePass_epochLaw h

/-- An input path of the Window Engine, as its `_cases` lemma gives it: an event that `f` makes of the front item, or
nothing. `after` is the state without that item. -/
theorem epochLaw_of_pathEvent {α : Type} {t : State} {items : List α} {f : α → Option (State → State)}
    {after : List α → State} (h : EpochLaw s)
    (hcases : (∃ x rest act, s.engine.pass = none ∧ items = x :: rest ∧ f x = some act ∧
      t = engineEvent (after rest) act) ∨ t = s)
    (hf : ∀ x rest act, items = x :: rest → f x = some act → EpochLaw (act (after rest))) : EpochLaw t := by
  obtain ⟨x, rest, act, -, hitems, hx, rfl⟩ | rfl := hcases
  · exact engineEvent_epochLaw (hf x rest act hitems hx)
  · exact h

/-- R114, R115: the engine takes the front of the table's path, adopts its token and owes its acknowledgement. -/
theorem EpochLaw.engine_item {t : State} {x : EngineItem} {rest : List EngineItem} {y : EngineAck} (h : EpochLaw s)
    (hitems : s.paths.tableToEngine = x :: rest) (hframe : ChangesOnly .engine s t)
    (hrest : t.paths.tableToEngine = rest) (hack : t.engine.ackDue = some y)
    (hsent : t.paths.engineAcks = s.paths.engineAcks) (hx : engineToken x = some (engineAckToken y))
    (hepoch : t.engine.epoch = (engineAckToken y).adopt s.engine.epoch) : EpochLaw t := by
  have htokens : engineTokens s = engineAckToken y :: engineTokens t := by
    simp [engineTokens, hitems, hrest, hx]
  obtain ⟨-, hnone, hacks⟩ := h.engine_alone htokens
  refine h.of_engine hframe (.passes _ htokens ?_ hepoch)
  simp [engineAckTokens, hack, hsent, hnone, hacks]

/-- R90: an open request carries no token. -/
theorem takeOpen_epochLaw (q : OpenRequest) (h : EpochLaw s) : EpochLaw (takeOpen q s) := by
  have hcreate : EpochLaw (createWindow s q) := iteInduction (fun _ => h) fun _ => h
  refine iteInduction (fun _ => h) fun _ => ?_
  split
  · exact iteInduction (fun _ => h) fun _ => h
  · exact h
  all_goals exact hcreate

theorem takeStored_epochLaw (r : Round) (h : EpochLaw s) : EpochLaw (takeStored r s) :=
  iteInduction (fun _ => h) fun _ => h

theorem takeLost_epochLaw (n : Round) (h : EpochLaw s) : EpochLaw (takeLost n s) :=
  iteInduction (fun _ => h) fun _ => h

theorem takeFlushedRestart_epochLaw (h : EpochLaw s) : EpochLaw (takeFlushedRestart s) :=
  iteInduction (fun _ => h) fun _ => h

theorem takeWinHead_epochLaw (h : EpochLaw s) : EpochLaw (takeWinHead s) := by
  unfold takeWinHead
  split
  · exact iteInduction (fun _ => resumePass_epochLaw h) fun _ => endPass_epochLaw h
  · exact h

theorem takeWinGroup_epochLaw (h : EpochLaw s) : EpochLaw (takeWinGroup s) := by
  unfold takeWinGroup
  split
  · rename_i g _ _
    refine iteInduction (fun _ => resumePass_epochLaw ?_) fun _ => endPass_epochLaw h
    cases g <;> exact h
  · exact h

theorem takeWinTail_epochLaw (h : EpochLaw s) : EpochLaw (takeWinTail s) := by
  unfold takeWinTail
  split
  · exact resumePass_epochLaw h
  · exact h

theorem engine_epochLaw {c : Instr} {t : State} (hc : blockOf c = .engine) (h : EpochLaw s)
    (ht : exec c s = .next t) : EpochLaw t := by
  cases c <;> cases hc
  all_goals obtain rfl := Host.Outcome.next.inj ht
  case openRequest =>
    refine epochLaw_of_pathEvent h (onTablePath_cases s _) ?_
    rintro (q | _ | _) rest _ hitems ⟨⟩
    have htaken : EpochLaw { s with paths := { s.paths with tableToEngine := rest } } :=
      h.of_engine rfl (.of_item hitems (List.append_nil _).symm rfl)
    exact takeOpen_epochLaw q htaken
  case windowEpochMark | windowNodeResetNotice =>
    refine epochLaw_of_pathEvent h (onTablePath_cases s _) ?_
    rintro (_ | _ | _) rest _ hitems ⟨⟩
    exact h.engine_item hitems rfl rfl rfl rfl rfl rfl
  case storedNotice =>
    refine epochLaw_of_pathEvent h (onStorePath_cases s _) ?_
    rintro (r | _ | _ | _ | _) rest _ - ⟨⟩
    exact takeStored_epochLaw r h
  case windowLostNotice =>
    refine epochLaw_of_pathEvent h (onStorePath_cases s _) ?_
    rintro (_ | _ | _ | _ | n) rest _ - ⟨⟩
    exact takeLost_epochLaw n h
  case overwrittenNotice =>
    refine epochLaw_of_pathEvent h (onStorePath_cases s _) ?_
    rintro (_ | _ | _ | _ | _) rest _ - ⟨⟩
    exact h
  case flushedRestartNotice | flushedNodeResetNotice =>
    refine epochLaw_of_pathEvent h (onStorePath_cases s _) ?_
    rintro (_ | _ | _ | _ | _) rest _ - ⟨⟩
    exact takeFlushedRestart_epochLaw h
  case roomNotice | tailTransmittedNotice =>
    refine epochLaw_of_pathEvent h (onQueuePath_cases s _) ?_
    rintro (_ | _) rest _ - ⟨⟩
    exact h
  case windowSafeState | windowSessionOpen =>
    refine epochLaw_of_pathEvent h (onAgentPath_cases s _) ?_
    rintro (_ | _) rest _ - ⟨⟩
    exact h
  case winHeadOffer => exact takeWinHead_epochLaw h
  case winSampleGroupOffer => exact takeWinGroup_epochLaw h
  case winTailOffer => exact takeWinTail_epochLaw h

end Engine

end Sys2Proof.Machine
end

section
/-! R155: the Agent starts and ends a commit or a node reset under the epoch law, and so every step keeps it. -/

namespace Sys2Proof.Machine

/-! ## The Management Agent -/

section Agent

variable {s : State}

theorem enqueueRequest_epochLaw (q : Request) (h : EpochLaw s) : EpochLaw (enqueueRequest s q) :=
  iteInduction (fun _ => h) fun _ => h

theorem classifyArrival_epochLaw (q : Request) (h : EpochLaw s) : EpochLaw (classifyArrival s q) := by
  unfold classifyArrival
  split
  · exact h
  · exact enqueueRequest_epochLaw q h
  · split
    · exact iteInduction (fun _ => h) fun _ => h
    · exact enqueueRequest_epochLaw q (iteInduction (fun _ => h) fun _ => h)
    · exact enqueueRequest_epochLaw q h

/-- R173: a reply carries no token. -/
theorem reply_epochLaw (q : Request) (result : Result) (value aux : Word32) (h : EpochLaw s) :
    EpochLaw (reply s q result value aux) := h

theorem serve_epochLaw {k : Kind} {act : State → Request → State} (h : EpochLaw s)
    (hact : ∀ q, headToServe s = some q → EpochLaw (act s q)) : EpochLaw (serve s k act) := by
  obtain ⟨q, hq, -, -, heq⟩ | heq := serve_cases s k act <;> rw [heq]
  · exact hact q hq
  · exact h

/-- Only what a service does in an OPEN session is left; otherwise it replies. -/
theorem sessionService_epochLaw (k : Kind) {act : State → Request → State} (h : EpochLaw s)
    (hact : ∀ q, headToServe s = some q → EpochLaw (act s q)) : EpochLaw (serve s k (needsSession act)) := by
  refine serve_epochLaw h fun q hq => ?_
  obtain ⟨-, heq⟩ | ⟨-, heq⟩ | ⟨-, heq⟩ := needsSession_cases act s q <;> rw [heq]
  · exact hact q hq
  · exact reply_epochLaw q _ _ _ h
  · exact reply_epochLaw q _ _ _ h

theorem serveUnknown_epochLaw (h : EpochLaw s) : EpochLaw (serveUnknown s) := by
  unfold serveUnknown
  split
  · exact iteInduction (fun _ => h) fun _ => h
  · exact h

/-- R177, R178, R180: the direct notices of the session carry no token. -/
theorem sessionNotices_epochLaw (x : TriggerNotice) (y : LineNotice) (h : EpochLaw s) :
    EpochLaw (noticeToLines (noticeToTable s x) y) := h

theorem noticeToEngine_epochLaw (x : EngineNotice) (h : EpochLaw s) : EpochLaw (noticeToEngine s x) := h

/-- R135: an offer to the Egress Queue carries no token. -/
theorem agentOffer_epochLaw (x : AgentOffer) (h : EpochLaw s) : EpochLaw (agentOffer s x) := h

theorem openWith_epochLaw (l : Nat) (h : EpochLaw s) : EpochLaw (openWith s l) := by
  have hnotices : EpochLaw (sendSessionOpen s) :=
    iteInduction (fun _ => noticeToEngine_epochLaw _ (sessionNotices_epochLaw _ _ h)) fun _ => h
  exact hnotices

theorem serveOpen_epochLaw (q : Request) (h : EpochLaw s) : EpochLaw (serveOpen s q) := by
  unfold serveOpen
  split_ifs
  · exact h
  · exact h
  · exact reply_epochLaw _ _ _ _ (openWith_epochLaw _ h)

theorem serveClose_epochLaw (q : Request) (h : EpochLaw s) : EpochLaw (serveClose s q) := by
  have hnotices := sessionNotices_epochLaw .close .close h
  exact reply_epochLaw q _ _ _ hnotices

theorem leaseRunsOut_epochLaw (h : EpochLaw s) : EpochLaw (leaseRunsOut s) := by
  have hnotices := noticeToEngine_epochLaw .safeState (sessionNotices_epochLaw .safeState .safeState h)
  exact agentOffer_epochLaw _ hnotices

theorem leaseExpires_epochLaw (h : EpochLaw s) : EpochLaw (leaseExpires s) := by
  unfold leaseExpires
  split
  · exact h
  · exact iteInduction (fun _ => leaseRunsOut_epochLaw (s := reach s _) h) fun _ => h

theorem serveWrite_epochLaw (q : Request) (h : EpochLaw s) : EpochLaw (serveWrite s q) := by
  unfold serveWrite
  split
  · exact reply_epochLaw q _ _ _ h
  · exact reply_epochLaw q .ok _ _ (s := { s with agent := { s.agent with staging := _, writeCount := _ } }) h

theorem serveDirect_epochLaw (q : Request) (h : EpochLaw s) : EpochLaw (serveDirect s q) := by
  unfold serveDirect; split <;> exact h

theorem dispatchNotice_epochLaw (h : EpochLaw s) : EpochLaw (dispatchNotice s) := by
  unfold dispatchNotice
  split
  · rename_i x _; cases x <;> exact h
  · exact h

theorem serveFront_epochLaw (h : EpochLaw s) : EpochLaw (serveFront s) := by
  unfold serveFront
  split
  · rename_i q _
    refine iteInduction (fun _ => ?_) fun _ => h
    unfold needsSession relayRequest
    split
    · split <;> exact h
    · exact h
    · exact h
  · exact h

theorem completeRelay_epochLaw (h : EpochLaw s) : EpochLaw (completeRelay s) := by
  unfold completeRelay
  split
  · dsimp only; split <;> exact h
  · exact h

theorem serveRead_epochLaw (target : ReadTarget) (q : Request) (h : EpochLaw s) :
    EpochLaw (serveRead target s q) := iteInduction (fun _ => h) fun _ => h

/-! ### Commits and node resets -/

/-- With nothing in progress the Agent waits for no token. -/
theorem tokenDue_idle {a : Agent} (hcommit : a.committing = false) (hreset : a.nodeResetting = false) (acked : Bool) :
    tokenDue a acked = [] := by
  cases acked <;> simp [tokenDue, hcommit, hreset]

/-- The Agent starts a commit or a node reset, with nothing in progress: it becomes `a` and sends out the token of
`y`. -/
theorem startAssembler_epochLaw {a : Agent} {y : AssemblerStart} {q : Request} (h : EpochLaw s)
    (hq : headToServe s = some q) (hone : a.committing = true → a.nodeResetting = false)
    (hengineDue : tokenDue a a.engineAcked = [startToken y]) (hlinesDue : tokenDue a a.linesAcked = [startToken y])
    (hepoch : adopted a.epoch [startToken y] = s.agent.epoch) :
    EpochLaw (startAssembler { s with agent := a } y) := by
  obtain ⟨-, hreset, hcommit, -⟩ := headToServe_eq hq
  obtain ⟨-, hengine, hlines⟩ := (epochLaw_iff s).1 h
  rw [EngineChain, tokenDue_idle hcommit hreset] at hengine
  rw [LinesChain, tokenDue_idle hcommit hreset] at hlines
  have hnone : beforeAssembler s = [] := List.prefix_nil.1 hengine.2.before_due
  have hsent : beforeAssembler (startAssembler { s with agent := a } y) = [startToken y] := by
    obtain ⟨hstarts, hmark⟩ : s.paths.agentToAsm = [] ∧ s.asm.pendingMark = none := by
      simpa [beforeAssembler] using hnone
    simp [beforeAssembler, startAssembler, hstarts, hmark]
  simp only [commonStages, hnone] at hengine hlines
  refine (epochLaw_iff _).2 ⟨hone, ?_, ?_⟩
  · rw [EngineChain, commonStages, hsent]
    exact hengineDue ▸ hengine.start hepoch
  · rw [LinesChain, commonStages, hsent]
    exact hlinesDue ▸ hlines.start hepoch

/-- R161: the mark that a commit sends carries the new epoch, one more than each block's. -/
theorem serveCommit_epochLaw {q : Request} (h : EpochLaw s) (hq : headToServe s = some q) :
    EpochLaw (serveCommit s q) := by
  obtain ⟨-, hreset, -, -⟩ := headToServe_eq hq
  refine iteInduction (fun _ => h) fun _ => iteInduction (fun _ => h) fun _ => ?_
  split
  · exact h
  · exact startAssembler_epochLaw h hq (fun _ => hreset) rfl rfl (BitVec.add_sub_cancel s.agent.epoch 1)

/-- R182: a node reset changes no epoch. -/
theorem serveNodeReset_epochLaw {q : Request} (h : EpochLaw s) (hq : headToServe s = some q) :
    EpochLaw (serveNodeReset s q) := by
  obtain ⟨-, -, hcommit, -⟩ := headToServe_eq hq
  have hdue : tokenDue { s.agent with
      nodeResetting := true, engineAcked := false, linesAcked := false, phase := .awaitingAck } false =
      [.nodeReset] := by simp [tokenDue, hcommit]
  exact startAssembler_epochLaw h hq (fun hbusy => by simp [hcommit] at hbusy) hdue hdue rfl

/-- Both acknowledgements have been taken, and the Agent becomes `a`, at the same epoch. -/
theorem EpochLaw.of_acked {a : Agent} (h : EpochLaw s) (hengine : s.agent.engineAcked = true)
    (hlines : s.agent.linesAcked = true) (hengine' : a.engineAcked = true) (hlines' : a.linesAcked = true)
    (hepoch : a.epoch = s.agent.epoch) (hone : a.committing = true → a.nodeResetting = false) :
    EpochLaw { s with agent := a } := by
  obtain ⟨-, hengineChain, hlinesChain⟩ := (epochLaw_iff s).1 h
  rw [EngineChain, hengine] at hengineChain
  rw [LinesChain, hlines] at hlinesChain
  refine (epochLaw_iff _).2 ⟨hone, ?_, ?_⟩
  · rw [EngineChain, hengine', hepoch]
    exact hengineChain
  · rw [LinesChain, hlines', hepoch]
    exact hlinesChain

/-- R164: a commit completes when nothing is due. -/
theorem completeCommit_epochLaw (h : EpochLaw s) : EpochLaw (completeCommit s) := by
  refine iteInduction (fun hready => ?_) fun _ => h
  simp only [commitReady, Bool.and_eq_true] at hready
  obtain ⟨⟨⟨-, hengine⟩, hlines⟩, -⟩ := hready
  unfold finishCommit
  dsimp only
  have hfinished := h.of_acked (a := { s.agent with
    active := s.agent.staging, writeCount := 0, committing := false }) hengine hlines hengine hlines rfl nofun
  split
  · exact reply_epochLaw _ _ _ _ hfinished
  · exact hfinished

/-- R182: a node reset ends when nothing is due. -/
theorem completeNodeReset_epochLaw (h : EpochLaw s) : EpochLaw (completeNodeReset s) := by
  refine iteInduction (fun hready => ?_) fun _ => h
  simp only [Bool.and_eq_true] at hready
  obtain ⟨⟨-, hengine⟩, hlines⟩ := hready
  dsimp only
  have hfinished := h.of_acked (a := { s.agent with nodeResetting := false })
    hengine hlines hengine hlines rfl fun _ => rfl
  split
  · exact reply_epochLaw _ _ _ _ hfinished
  · exact hfinished

theorem takeMarkReport_epochLaw (h : EpochLaw s) : EpochLaw (takeMarkReport s) := by
  unfold takeMarkReport
  split
  · exact completeCommit_epochLaw h
  · exact h

/-- The Agent takes the engine's acknowledgement. -/
theorem EpochLaw.take_engineAck {x : EngineAck} {rest : List EngineAck} (h : EpochLaw s)
    (hacks : s.paths.engineAcks = x :: rest) :
    EpochLaw (noteAck { s with paths := { s.paths with engineAcks := rest } } .windowEngine) := by
  have hnone : s.engine.ackDue = none := by simpa [hacks] using h.engine_one_ack
  obtain ⟨hone, hengine, hlines⟩ := (epochLaw_iff s).1 h
  have htokens : engineAckTokens s = engineAckToken x ::
      engineAckTokens (noteAck { s with paths := { s.paths with engineAcks := rest } } .windowEngine) := by
    simp [engineAckTokens, noteAck, hacks, hnone]
  rw [EngineChain, htokens] at hengine
  exact (epochLaw_iff _).2 ⟨hone, hengine.acknowledged, hlines⟩

/-- The Agent takes the lines' acknowledgement of a token. -/
theorem EpochLaw.take_lineAck {x : LineAck} {y : Token} {rest : List LineAck} (h : EpochLaw s)
    (hacks : s.paths.lineAcks = x :: rest) (hx : lineAckToken x = some y) :
    EpochLaw (noteAck { s with paths := { s.paths with lineAcks := rest } } .outputLines) := by
  obtain ⟨hone, hengine, hlines⟩ := (epochLaw_iff s).1 h
  have htokens : lineAckTokens s = y ::
      lineAckTokens (noteAck { s with paths := { s.paths with lineAcks := rest } } .outputLines) := by
    simp [lineAckTokens, noteAck, hacks, hx]
  rw [LinesChain, htokens] at hlines
  exact (epochLaw_iff _).2 ⟨hone, hengine, hlines.acknowledged⟩

theorem takeMarkAck_epochLaw (source : Acknowledger) (h : EpochLaw s) : EpochLaw (takeMarkAck source s) := by
  cases source <;> simp only [takeMarkAck] <;> split
  · exact completeCommit_epochLaw (h.take_engineAck ‹_›)
  · exact h
  · exact completeCommit_epochLaw (h.take_lineAck ‹_› rfl)
  · exact h

theorem takeNodeResetAck_epochLaw (source : Acknowledger) (h : EpochLaw s) :
    EpochLaw (takeNodeResetAck source s) := by
  cases source <;> simp only [takeNodeResetAck] <;> split
  · exact completeNodeReset_epochLaw (h.take_engineAck ‹_›)
  · exact h
  · exact completeNodeReset_epochLaw (h.take_lineAck ‹_› rfl)
  · exact h

/-- R175: the acknowledgement of a direct notice carries no token. -/
theorem takeNoticeAck_epochLaw (h : EpochLaw s) : EpochLaw (takeNoticeAck s) := by
  unfold takeNoticeAck
  split
  · exact iteInduction (fun _ => h) fun _ => h
  · rename_i rest _ hacks
    have htaken : EpochLaw { s with paths := { s.paths with lineAcks := rest } } :=
      h.of_lines rfl (.stays rfl (by rw [lineAckTokens, lineAckTokens, hacks]; rfl) rfl)
    unfold replyLineAck
    split <;> exact htaken
  · exact h

theorem agent_epochLaw {c : Instr} {t : State} (hc : blockOf c = .agent) (h : EpochLaw s)
    (ht : exec c s = .next t) : EpochLaw t := by
  cases c <;> cases hc
  all_goals obtain rfl := Host.Outcome.next.inj ht
  case requestArrival dt request => exact onLane_epochLaw dt h fun _ => classifyArrival_epochLaw request
  case unknownKindService => exact serveUnknown_epochLaw h
  case openSession => exact serve_epochLaw h fun q _ => serveOpen_epochLaw q h
  case closeSession => exact sessionService_epochLaw _ h fun q _ => serveClose_epochLaw q h
  case renew | revert => exact sessionService_epochLaw _ h fun q _ => reply_epochLaw q _ _ _ h
  case write => exact sessionService_epochLaw _ h fun q _ => serveWrite_epochLaw q h
  case commit => exact sessionService_epochLaw _ h fun _ hq => serveCommit_epochLaw h hq
  case nodeReset => exact sessionService_epochLaw _ h fun _ hq => serveNodeReset_epochLaw h hq
  case arm | disarm | fireRequest | line => exact sessionService_epochLaw _ h fun q _ => serveDirect_epochLaw q h
  case readActive | readStaging | readHistory | readStateHistory | readStateCondition | readStateTrigger
      | readStateWindow | readStateLine | readStateEgress | readStateAgent | readCounters =>
    exact serve_epochLaw h fun q _ => serveRead_epochLaw _ q h
  case markRoundReport => exact takeMarkReport_epochLaw h
  case markAck source => exact takeMarkAck_epochLaw source h
  case dispatch => exact dispatchNotice_epochLaw h
  case noticeAck => exact takeNoticeAck_epochLaw h
  case nodeResetAck source => exact takeNodeResetAck_epochLaw source h
  case frontRelay => exact serveFront_epochLaw h
  case feCommandTxComplete => exact completeRelay_epochLaw h
  case leaseExpiry => exact leaseExpires_epochLaw h

end Agent

/-! ## Every step -/

section Steps

variable {s t : State}

theorem powerOnReset_epochLaw : EpochLaw (powerOnReset s) := ⟨nofun, rfl, rfl, rfl, rfl, rfl, rfl, rfl⟩

/-- The other blocks, the clock and CLEAR_COUNTERS touch nothing that the law reads. -/
theorem exec_epochLaw {c : Instr} (h : EpochLaw s) (ht : exec c s = .next t) : EpochLaw t := by
  have hframe := exec_changesOnly ht
  cases hc : blockOf c <;> rw [hc] at hframe
  case power =>
    cases c <;> cases hc
    case powerOnReset => cases ht; exact powerOnReset_epochLaw
  case assembler => exact assembler_epochLaw hc h ht
  case evaluator => exact evaluator_epochLaw hc h ht
  case table => exact table_epochLaw hc h ht
  case engine => exact engine_epochLaw hc h ht
  case lines => exact lines_epochLaw hc h ht
  case agent => exact agent_epochLaw hc h ht
  case clock | lanes | store | queue | clearing => rw [hframe]; exact h

theorem step_epochLaw (h : EpochLaw s) (ht : step s = .next t) : EpochLaw t := by
  unfold step at ht
  split at ht
  · cases ht; exact elapse_epochLaw 1 h
  · rename_i c rest _
    have hrest : EpochLaw { s with pending := rest } := h
    exact exec_epochLaw hrest ht

/-- R155: a mark that has still to reach a block is the one the commit in progress sent. -/
theorem adopted_agrees {acked : Bool} {before : List Token} (h : before <+: tokenDue s.agent acked) :
    EpochAgrees s (adopted s.agent.epoch before) := by
  unfold adopted
  split_ifs with hmark
  · refine .inr ⟨rfl, ?_⟩
    obtain ⟨x, hx, hne⟩ := List.any_eq_true.1 hmark
    have hmem := h.subset hx
    unfold tokenDue at hmem
    split_ifs at hmem with _ hcommit
    · cases hmem
    · exact hcommit
    · rw [List.mem_singleton.1 hmem] at hne
      cases hne
    · cases hmem
  · exact .inl rfl

/-- R155: each block of a chain is at the Agent's epoch, or one less during a commit. -/
theorem ChainLaw.agrees {acked : Bool} {acks before : List Token} {stages : List Stage}
    (h : ChainLaw s.agent.epoch (tokenDue s.agent acked) acks before stages) :
    ∀ b ∈ stages, EpochAgrees s b.epoch := by
  induction stages generalizing before with
  | nil => nofun
  | cons b rest ih =>
    obtain ⟨hepoch, hrest⟩ := h
    exact List.forall_mem_cons.2 ⟨hepoch ▸ adopted_agrees hrest.before_due, ih hrest⟩

/-- Settles O58: every step keeps the law of the two chains, and a block whose mark has not come is one behind. -/
theorem epochLawKept : Obligations.EpochLawKept := by
  refine ⟨fun s t h ht => step_epochLaw h ht, fun s h => ?_⟩
  obtain ⟨-, hengine, hlines⟩ := (epochLaw_iff s).1 h
  have onEngineChain := hengine.agrees
  have onLinesChain := hlines.agrees
  simp only [commonStages, List.cons_append, List.nil_append, List.forall_mem_cons] at onEngineChain onLinesChain
  obtain ⟨hasm, hevaluator, htable, hengineUnit, -⟩ := onEngineChain
  obtain ⟨-, -, -, hlineUnit, -⟩ := onLinesChain
  exact ⟨hasm, hevaluator, htable, hengineUnit, hlineUnit⟩

end Steps
end Sys2Proof.Machine
end

section
/-! R181: the lease timer. The other blocks leave it alone; of the Agent's commands OPEN, a RENEW arrival, CLOSE and
the expiry change it, and each other operation of the Agent keeps it. -/

namespace Sys2Proof.Machine

/-- Only the Agent's own commands and the power-on reset change the lease timer. -/
theorem ChangesOnly.leaseExpiry_eq {b : Block} {s t : State} (h : ChangesOnly b s t) (hpower : b ≠ .power)
    (hagent : b ≠ .agent) : t.agent.leaseExpiry = s.agent.leaseExpiry := by
  cases b
  case power => exact absurd rfl hpower
  case agent => exact absurd rfl hagent
  all_goals exact Eq.trans (congrArg (·.agent.leaseExpiry) h) rfl

section Lease

variable (s : State)

/-! ## Arrival (R170, R171) -/

theorem eq_zero_of_destinationOf_node {b : Byte} (h : destinationOf b = some .node) : b = 0x00#8 := by
  unfold destinationOf at h
  split at h
  next hb => exact BitVec.eq_of_toNat_eq hb
  all_goals cases h

theorem eq_three_of_kindOf_renew {b : Byte} (h : kindOf b = some .renew) : b = 0x03#8 := by
  unfold kindOf at h
  split at h
  case h_3 hb => exact BitVec.eq_of_toNat_eq hb
  all_goals cases h

@[simp] theorem elapse_agent (dt : Nat) : (elapse s dt).agent = s.agent := by rw [elapse_spec]

@[simp] theorem enqueueRequest_lease (q : Request) :
    (enqueueRequest s q).agent.leaseExpiry = s.agent.leaseExpiry := by
  unfold enqueueRequest; split <;> rfl

@[simp] theorem creditArrives_lease (n : Nat) : (creditArrives s n).agent.leaseExpiry = s.agent.leaseExpiry := by
  unfold creditArrives; split <;> rfl

/-- R171: a RENEW arrival keeps the lease timer, or leaves it running in an OPEN session. -/
theorem renewArrives_lease : (renewArrives s).agent.leaseExpiry = s.agent.leaseExpiry ∨
    (s.agent.session = .opened ∧ (renewArrives s).agent.leaseExpiry ≠ none) := by
  unfold renewArrives
  split
  next hopen => exact .inr ⟨hopen.1, Option.some_ne_none _⟩
  next => exact .inl rfl

/-- R170, R171: of the arrivals only a NODE request of kind RENEW reaches the lease timer. -/
theorem classifyArrival_lease (q : Request) :
    (classifyArrival s q).agent.leaseExpiry = s.agent.leaseExpiry ∨
    (q.dest = 0x00#8 ∧ q.kind = 0x03#8 ∧ s.agent.session = .opened ∧
      (classifyArrival s q).agent.leaseExpiry ≠ none) := by
  unfold classifyArrival
  split
  next => exact .inl rfl
  next => exact .inl (enqueueRequest_lease s q)
  next hnode =>
    split
    next => exact .inl (creditArrives_lease s _)
    next hrenew =>
      rw [enqueueRequest_lease]
      exact (renewArrives_lease s).imp_right fun ⟨hopen, hruns⟩ =>
        ⟨eq_zero_of_destinationOf_node hnode, eq_three_of_kindOf_renew hrenew, hopen, hruns⟩
    next => exact .inl (enqueueRequest_lease s q)

/-- A cell on a lane: the time before it leaves the Agent alone. -/
theorem requestArrival_lease (dt : Nat) (q : Request) :
    (onLane s dt (classifyArrival · q)).agent.leaseExpiry = s.agent.leaseExpiry ∨
    (q.dest = 0x00#8 ∧ q.kind = 0x03#8 ∧ s.agent.session = .opened ∧
      (onLane s dt (classifyArrival · q)).agent.leaseExpiry ≠ none) := by
  obtain ⟨-, h⟩ | ⟨-, h⟩ := onLane_cases s dt (classifyArrival · q) <;> rw [h]
  · simpa using classifyArrival_lease (elapse s dt) q
  · exact .inl rfl

/-! ## Service (R172 to R174) -/

@[simp] theorem reply_lease (q : Request) (result : Result) (value aux : Word32) :
    (reply s q result value aux).agent.leaseExpiry = s.agent.leaseExpiry := rfl

@[simp] theorem bareReply_lease (q : Request) (result : Result) :
    (bareReply s q result).agent.leaseExpiry = s.agent.leaseExpiry := rfl

/-- A service command keeps the lease timer where what it does to its request does. -/
theorem serve_lease (k : Kind) {act : State → Request → State}
    (hact : ∀ q, (act s q).agent.leaseExpiry = s.agent.leaseExpiry) :
    (serve s k act).agent.leaseExpiry = s.agent.leaseExpiry := by
  obtain ⟨q, -, -, -, h⟩ | h := serve_cases s k act <;> rw [h]
  exact hact q

theorem needsSession_lease {act : State → Request → State} {q : Request}
    (hact : (act s q).agent.leaseExpiry = s.agent.leaseExpiry) :
    (needsSession act s q).agent.leaseExpiry = s.agent.leaseExpiry := by
  obtain ⟨-, h⟩ | ⟨-, h⟩ | ⟨-, h⟩ := needsSession_cases act s q <;> rw [h]
  · exact hact
  · exact bareReply_lease s q _
  · exact bareReply_lease s q _

@[simp] theorem serveUnknown_lease : (serveUnknown s).agent.leaseExpiry = s.agent.leaseExpiry := by
  unfold serveUnknown
  split
  · split <;> rfl
  · rfl

@[simp] theorem serveRead_lease (target : ReadTarget) (q : Request) :
    (serveRead target s q).agent.leaseExpiry = s.agent.leaseExpiry := by
  unfold serveRead; split <;> rfl

/-! ## The session (R177 to R181) -/

/-- R177: OPEN reaches the lease timer where the session is not OPEN. -/
theorem serveOpen_lease (q : Request) : (serveOpen s q).agent.leaseExpiry = s.agent.leaseExpiry ∨
    s.agent.session ≠ .opened := by
  by_cases hopen : s.agent.session = .opened
  · exact .inl (by simp [serveOpen, hopen])
  · exact .inr hopen

theorem openSession_lease : (serve s .openSession serveOpen).agent.leaseExpiry = s.agent.leaseExpiry ∨
    s.agent.session ≠ .opened := by
  obtain ⟨q, -, -, -, h⟩ | h := serve_cases s .openSession serveOpen <;> rw [h]
  · exact serveOpen_lease s q
  · exact .inl rfl

/-- R178: CLOSE stops the lease timer, or is not served. -/
theorem closeSession_lease :
    (serve s .closeSession (needsSession serveClose)).agent.leaseExpiry = s.agent.leaseExpiry ∨
    (serve s .closeSession (needsSession serveClose)).agent.leaseExpiry = none := by
  obtain ⟨q, -, -, -, h⟩ | h := serve_cases s .closeSession (needsSession serveClose) <;> rw [h]
  · obtain ⟨-, hdone⟩ | ⟨-, hdone⟩ | ⟨-, hdone⟩ := needsSession_cases serveClose s q <;> rw [hdone]
    · exact .inr rfl
    · exact .inl rfl
    · exact .inl rfl
  · exact .inl rfl

@[simp] theorem serveRenew_lease (q : Request) :
    (serveRenew s q).agent.leaseExpiry = s.agent.leaseExpiry := rfl

/-- R180: the expiry stops the lease timer, or is not due. -/
theorem leaseExpires_lease : (leaseExpires s).agent.leaseExpiry = s.agent.leaseExpiry ∨
    (leaseExpires s).agent.leaseExpiry = none := by
  unfold leaseExpires
  split
  · exact .inl rfl
  · split
    · exact .inr rfl
    · exact .inl rfl

/-! ## STAGING and commits (R156 to R165) -/

@[simp] theorem serveWrite_lease (q : Request) :
    (serveWrite s q).agent.leaseExpiry = s.agent.leaseExpiry := by
  unfold serveWrite; split <;> rfl

@[simp] theorem serveRevert_lease (q : Request) :
    (serveRevert s q).agent.leaseExpiry = s.agent.leaseExpiry := rfl

@[simp] theorem serveCommit_lease (q : Request) :
    (serveCommit s q).agent.leaseExpiry = s.agent.leaseExpiry := by
  unfold serveCommit
  split_ifs
  · rfl
  · rfl
  · split <;> rfl

@[simp] theorem completeCommit_lease : (completeCommit s).agent.leaseExpiry = s.agent.leaseExpiry := by
  unfold completeCommit finishCommit
  split
  · dsimp only; split <;> rfl
  · rfl

@[simp] theorem noteAck_lease (source : Acknowledger) :
    (noteAck s source).agent.leaseExpiry = s.agent.leaseExpiry := by
  cases source <;> rfl

@[simp] theorem takeMarkReport_lease : (takeMarkReport s).agent.leaseExpiry = s.agent.leaseExpiry := by
  unfold takeMarkReport; split <;> simp

@[simp] theorem takeMarkAck_lease (source : Acknowledger) :
    (takeMarkAck source s).agent.leaseExpiry = s.agent.leaseExpiry := by
  cases source <;> simp only [takeMarkAck] <;> split <;> simp

/-! ## Direct notices, node resets and the front end (R175, R176, R182) -/

@[simp] theorem serveDirect_lease (q : Request) :
    (serveDirect s q).agent.leaseExpiry = s.agent.leaseExpiry := by
  unfold serveDirect; split <;> rfl

@[simp] theorem dispatchNotice_lease : (dispatchNotice s).agent.leaseExpiry = s.agent.leaseExpiry := by
  unfold dispatchNotice
  split
  · rename_i notice _; cases notice <;> rfl
  · rfl

@[simp] theorem takeNoticeAck_lease : (takeNoticeAck s).agent.leaseExpiry = s.agent.leaseExpiry := by
  unfold takeNoticeAck
  split
  · unfold replyTableAck; split <;> rfl
  · unfold replyLineAck; split <;> rfl
  · rfl

@[simp] theorem serveNodeReset_lease (q : Request) :
    (serveNodeReset s q).agent.leaseExpiry = s.agent.leaseExpiry := rfl

@[simp] theorem completeNodeReset_lease : (completeNodeReset s).agent.leaseExpiry = s.agent.leaseExpiry := by
  unfold completeNodeReset
  split
  · dsimp only; split <;> rfl
  · rfl

@[simp] theorem takeNodeResetAck_lease (source : Acknowledger) :
    (takeNodeResetAck source s).agent.leaseExpiry = s.agent.leaseExpiry := by
  cases source <;> simp only [takeNodeResetAck] <;> split <;> simp

@[simp] theorem relayRequest_lease (q : Request) :
    (relayRequest s q).agent.leaseExpiry = s.agent.leaseExpiry := by
  unfold relayRequest; split <;> rfl

@[simp] theorem serveFront_lease : (serveFront s).agent.leaseExpiry = s.agent.leaseExpiry := by
  unfold serveFront
  split
  · split
    · exact needsSession_lease s (relayRequest_lease s _)
    · rfl
  · rfl

@[simp] theorem completeRelay_lease : (completeRelay s).agent.leaseExpiry = s.agent.leaseExpiry := by
  unfold completeRelay
  split
  · dsimp only; split <;> rfl
  · rfl

end Lease

/-! ## R181 -/

/-- What a command of the Agent does to the lease timer: nothing, or what R177, R171, R178 or R180 says. -/
theorem agent_lease {c : Instr} {s t : State} (hc : blockOf c = .agent) (h : exec c s = .next t) :
    t.agent.leaseExpiry = s.agent.leaseExpiry ∨
    (c = .openSession ∧ s.agent.session ≠ .opened) ∨
    (∃ dt q, c = .requestArrival dt q ∧ q.dest = 0x00#8 ∧ q.kind = 0x03#8 ∧ s.agent.session = .opened ∧
      t.agent.leaseExpiry ≠ none) ∨
    ((c = .closeSession ∨ c = .leaseExpiry) ∧ t.agent.leaseExpiry = none) := by
  cases c <;> cases hc
  all_goals obtain rfl := Host.Outcome.next.inj h
  case openSession => exact (openSession_lease s).imp_right fun hclosed => .inl ⟨rfl, hclosed⟩
  case requestArrival dt q =>
    exact (requestArrival_lease s dt q).imp_right fun hrenewed => .inr (.inl ⟨dt, q, rfl, hrenewed⟩)
  case closeSession => exact (closeSession_lease s).imp_right fun hstopped => .inr (.inr ⟨.inl rfl, hstopped⟩)
  case leaseExpiry => exact (leaseExpires_lease s).imp_right fun hstopped => .inr (.inr ⟨.inr rfl, hstopped⟩)
  all_goals left
  case renew | write | revert | commit | arm | disarm | fireRequest | line | nodeReset =>
    exact serve_lease s _ fun _ => needsSession_lease s (by simp)
  case readActive | readStaging | readHistory | readStateHistory | readStateCondition | readStateTrigger
      | readStateWindow | readStateLine | readStateEgress | readStateAgent | readCounters =>
    exact serve_lease s _ (serveRead_lease s _)
  case unknownKindService => exact serveUnknown_lease s
  case markRoundReport => exact takeMarkReport_lease s
  case markAck source => exact takeMarkAck_lease s source
  case dispatch => exact dispatchNotice_lease s
  case noticeAck => exact takeNoticeAck_lease s
  case nodeResetAck source => exact takeNodeResetAck_lease s source
  case frontRelay => exact serveFront_lease s
  case feCommandTxComplete => exact completeRelay_lease s

/-- Settles O48: a power-on reset stops the timer, the Agent's commands change it only as ruled, and every other block
leaves the Agent's timer alone. -/
theorem leaseTimerChangesOnlyAsRuled : Obligations.LeaseTimerChangesOnlyAsRuled := by
  intro c s t h hchanged
  by_cases hpower : blockOf c = .power
  · obtain rfl : c = .powerOnReset := by cases c <;> cases hpower; rfl
    obtain rfl := Host.Outcome.next.inj h
    exact .inr (.inr ⟨.inr (.inr rfl), rfl⟩)
  by_cases hagent : blockOf c = .agent
  · obtain hkept | hopened | hrenewed | ⟨hstop, hstopped⟩ := agent_lease hagent h
    · exact absurd hkept hchanged
    · exact .inl hopened
    · exact .inr (.inl hrenewed)
    · exact .inr (.inr ⟨hstop.imp_right .inl, hstopped⟩)
  · exact absurd ((exec_changesOnly h).leaseExpiry_eq hpower hagent) hchanged

end Sys2Proof.Machine
end

section
/-! R183: counters that never fall. `CountersRise` compares the counters index by index (Table 9-4); an operation meets
it by the one counter that it raises. -/

namespace Sys2Proof.Machine

/-- The counter with an index, 0 for an index that no counter has. -/
def counterValue (c : Counters) (i : Nat) : Nat := ((counterAt c i).getD 0).toNat

/-- No counter of `d` is below that of `c`. -/
def CountersRise (c d : Counters) : Prop := ∀ i, counterValue c i ≤ counterValue d i

variable {c d e : Counters}

theorem CountersRise.refl (c : Counters) : CountersRise c c := fun _ => le_rfl

theorem CountersRise.of_eq (h : d = c) : CountersRise c d := h ▸ .refl c

theorem CountersRise.trans (h : CountersRise c d) (h' : CountersRise d e) : CountersRise c e :=
  fun i => (h i).trans (h' i)

/-- An index has a counter exactly when it is below 21 (Table 9-4). -/
theorem counterAt_eq_of_lt {i : Nat} (hi : i < 21) (c : Counters) :
    counterAt c i = some ((counterAt c i).getD 0) := by
  interval_cases i <;> rfl

theorem counterAt_eq_none {i : Nat} (hi : 21 ≤ i) (c : Counters) : counterAt c i = none := by
  obtain ⟨k, rfl⟩ := Nat.exists_eq_add_of_le' hi
  rfl

/-- Counters rise when each of the 21 does. -/
theorem CountersRise.of_each
    (h : c.streamBadCells.toNat ≤ d.streamBadCells.toNat ∧ c.controlBadCells.toNat ≤ d.controlBadCells.toNat ∧
      c.roundsAssembled.toNat ≤ d.roundsAssembled.toNat ∧ c.absentSamples.toNat ≤ d.absentSamples.toNat ∧
      c.straySamples.toNat ≤ d.straySamples.toNat ∧ c.malformedStreamCells.toNat ≤ d.malformedStreamCells.toNat ∧
      c.roundsLost.toNat ≤ d.roundsLost.toNat ∧ c.backwardRoundsRefused.toNat ≤ d.backwardRoundsRefused.toNat ∧
      c.restarts.toNat ≤ d.restarts.toNat ∧ c.liveDropped.toNat ≤ d.liveDropped.toNat ∧
      c.relayDropped.toNat ≤ d.relayDropped.toNat ∧ c.eventsDropped.toNat ≤ d.eventsDropped.toNat ∧
      c.cellsTransmitted.toNat ≤ d.cellsTransmitted.toNat ∧ c.windowsOpened.toNat ≤ d.windowsOpened.toNat ∧
      c.windowsRefused.toNat ≤ d.windowsRefused.toNat ∧ c.windowsTruncated.toNat ≤ d.windowsTruncated.toNat ∧
      c.windowsExtended.toNat ≤ d.windowsExtended.toNat ∧ c.retriggersIgnored.toNat ≤ d.retriggersIgnored.toNat ∧
      c.windowsDiscarded.toNat ≤ d.windowsDiscarded.toNat ∧ c.requestsDropped.toNat ≤ d.requestsDropped.toNat ∧
      c.malformedRequests.toNat ≤ d.malformedRequests.toNat) : CountersRise c d := by
  obtain ⟨h0, h1, h2, h3, h4, h5, h6, h7, h8, h9, h10, h11, h12, h13, h14, h15, h16, h17, h18, h19, h20⟩ := h
  intro i
  by_cases hi : i < 21
  · interval_cases i <;> assumption
  · rw [counterValue, counterAt_eq_none (Nat.not_lt.mp hi)]
    exact Nat.zero_le _

/-! ## One counter raised -/

section Raised

variable (c : Counters) (k : Nat)

theorem rises_streamBadCells : CountersRise c { c with streamBadCells := raise c.streamBadCells k } :=
  .of_each (by simp [le_raise])

theorem rises_controlBadCells : CountersRise c { c with controlBadCells := raise c.controlBadCells k } :=
  .of_each (by simp [le_raise])

theorem rises_roundsAssembled : CountersRise c { c with roundsAssembled := raise c.roundsAssembled k } :=
  .of_each (by simp [le_raise])

theorem rises_absentSamples : CountersRise c { c with absentSamples := raise c.absentSamples k } :=
  .of_each (by simp [le_raise])

theorem rises_straySamples : CountersRise c { c with straySamples := raise c.straySamples k } :=
  .of_each (by simp [le_raise])

theorem rises_malformedStreamCells : CountersRise c { c with malformedStreamCells := raise c.malformedStreamCells k } :=
  .of_each (by simp [le_raise])

theorem rises_roundsLost : CountersRise c { c with roundsLost := raise c.roundsLost k } :=
  .of_each (by simp [le_raise])

theorem rises_backwardRoundsRefused :
    CountersRise c { c with backwardRoundsRefused := raise c.backwardRoundsRefused k } :=
  .of_each (by simp [le_raise])

theorem rises_restarts : CountersRise c { c with restarts := raise c.restarts k } := .of_each (by simp [le_raise])

theorem rises_liveDropped : CountersRise c { c with liveDropped := raise c.liveDropped k } :=
  .of_each (by simp [le_raise])

theorem rises_relayDropped : CountersRise c { c with relayDropped := raise c.relayDropped k } :=
  .of_each (by simp [le_raise])

theorem rises_eventsDropped : CountersRise c { c with eventsDropped := raise c.eventsDropped k } :=
  .of_each (by simp [le_raise])

theorem rises_cellsTransmitted : CountersRise c { c with cellsTransmitted := raise c.cellsTransmitted k } :=
  .of_each (by simp [le_raise])

theorem rises_windowsOpened : CountersRise c { c with windowsOpened := raise c.windowsOpened k } :=
  .of_each (by simp [le_raise])

theorem rises_windowsRefused : CountersRise c { c with windowsRefused := raise c.windowsRefused k } :=
  .of_each (by simp [le_raise])

theorem rises_windowsTruncated : CountersRise c { c with windowsTruncated := raise c.windowsTruncated k } :=
  .of_each (by simp [le_raise])

theorem rises_windowsExtended : CountersRise c { c with windowsExtended := raise c.windowsExtended k } :=
  .of_each (by simp [le_raise])

theorem rises_retriggersIgnored : CountersRise c { c with retriggersIgnored := raise c.retriggersIgnored k } :=
  .of_each (by simp [le_raise])

theorem rises_windowsDiscarded : CountersRise c { c with windowsDiscarded := raise c.windowsDiscarded k } :=
  .of_each (by simp [le_raise])

theorem rises_requestsDropped : CountersRise c { c with requestsDropped := raise c.requestsDropped k } :=
  .of_each (by simp [le_raise])

theorem rises_malformedRequests : CountersRise c { c with malformedRequests := raise c.malformedRequests k } :=
  .of_each (by simp [le_raise])

end Raised

end Sys2Proof.Machine
end

section
/-! What a command of the Management Agent does. `AgentMove` lists the ways in which it changes the state;
`agent_move` says that every command of the Agent takes one of them, at some reading of the local timer. The laws that
the Agent's commands could break are then proved move by move. -/

namespace Sys2Proof.Machine

/-! ## The moves -/

/-- What the service of the request `q` may do before its reply. -/
inductive Prepared (s : State) (q : Request) : State → Prop
  | nothing : Prepared s q s
  | opened (l : Nat) : Prepared s q (openWith s l)
  | closed : Prepared s q { noticeToLines (noticeToTable s .close) .close with
      agent := { s.agent with session := .closed, leasePeriod := 0, leaseExpiry := none } }
  | written (b : Bank) (n : Nat) :
      writeBank s.agent.staging q.table.toNat q.index.toNat q.field.toNat q.value = some b →
      Prepared s q { s with agent := { s.agent with staging := b, writeCount := n } }
  | reverted : Prepared s q { s with agent := { s.agent with staging := s.agent.active, writeCount := 0 } }

/-- The Agent has taken a report or an acknowledgement of the commit or node reset in progress. -/
inductive Noted (s : State) : State → Prop
  | report (m : MarkRound) (rest : List (Option Round)) :
      Noted s { s with paths := { s.paths with asmReports := rest }, agent := { s.agent with markRound := m } }
  | engineAck (rest : List EngineAck) :
      Noted s { s with paths := { s.paths with engineAcks := rest }, agent := { s.agent with engineAcked := true } }
  | linesAck (rest : List LineAck) :
      Noted s { s with paths := { s.paths with lineAcks := rest }, agent := { s.agent with linesAcked := true } }

/-- What a command of the Agent makes of the state, but for the local timer. -/
inductive AgentMove (s : State) : State → Prop
  | stays : AgentMove s s
  | counts (c : Counters) : CountersRise s.counters c → AgentMove s { s with counters := c }
  | grants (n : Nat) : AgentMove s { s with paths := { s.paths with credits := s.paths.credits ++ [n] } }
  | renews (e : Option Nat) (c : Counters) : CountersRise s.counters c →
      AgentMove s { s with agent := { s.agent with leaseExpiry := e }, counters := c }
  | queues (q : Request) (e : Option Nat) : s.agent.fifo.length < 8 →
      AgentMove s { s with agent := { s.agent with fifo := s.agent.fifo ++ [q], leaseExpiry := e } }
  | answers (q : Request) (u : State) (r : Result) (value aux : Word32) : headToServe s = some q → Prepared s q u →
      AgentMove s (reply u q r value aux)
  | dispatches (q : Request) : headToServe s = some q → AgentMove s (enterDispatching s)
  | sends (x : DirectNotice) : toDispatch s = some x →
      AgentMove s (sendDirect { s with agent := { s.agent with phase := .awaitingAck } } x)
  | acknowledges (q : Request) (x : DirectNotice) (tables : List TriggerAck) (lines : List LineAck) (r : Result)
      (value aux : Word32) : awaitingNotice s = some (q, x) →
      AgentMove s (reply { s with paths := { s.paths with tableAcks := tables, lineAcks := lines } } q r value aux)
  | startsCommit (q : Request) : headToServe s = some q → destinationOf q.dest = some .node →
      kindOf q.kind = some .commit → AgentMove s (startCommit s)
  | startsReset (q : Request) : headToServe s = some q → destinationOf q.dest = some .node →
      kindOf q.kind = some .nodeReset → AgentMove s (serveNodeReset s q)
  | notes (u : State) : Noted s u → AgentMove s u
  | endsCommit (u : State) : Noted s u → commitReady u.agent = true → AgentMove s (finishCommit u)
  | endsReset (u : State) : Noted s u → u.agent.nodeResetting = true → AgentMove s (completeNodeReset u)
  | relays (q : Request) : headToServe s = some q → AgentMove s (startRelay s q)
  | relaysWaiting (q : Request) : waitingRelay s = some q → AgentMove s (startRelay { s with frontOut := none } q)
  | frees : AgentMove s { s with frontOut := none }
  | expires : AgentMove s (leaseRunsOut s)

section Operations

variable (s : State)

/-! ## Arrival (R170, R171) -/

theorem enqueueRequest_move (e : Option Nat) (q : Request) :
    AgentMove s (enqueueRequest { s with agent := { s.agent with leaseExpiry := e } } q) := by
  unfold enqueueRequest
  split
  · exact .queues q e ‹_›
  · exact .renews e _ (rises_requestsDropped _ 1)

theorem classifyArrival_move (q : Request) : AgentMove s (classifyArrival s q) := by
  have hqueue := enqueueRequest_move s s.agent.leaseExpiry q
  unfold classifyArrival
  split
  · exact .counts _ (rises_malformedRequests _ 1)
  · exact hqueue
  · split
    · unfold creditArrives
      split
      · exact .grants _
      · exact .counts _ (rises_malformedRequests _ 1)
    · unfold renewArrives
      split
      · exact enqueueRequest_move s _ q
      · exact hqueue
    · exact hqueue

/-! ## Service (R172 to R174) -/

variable {s}

/-- A service is a move when what it does to the head request, if that is of its kind, is one. -/
theorem serve_move {k : Kind} {act : State → Request → State}
    (hact : ∀ q, headToServe s = some q → destinationOf q.dest = some .node → kindOf q.kind = some k →
      AgentMove s (act s q)) : AgentMove s (serve s k act) := by
  obtain ⟨q, hq, hnode, hkind, heq⟩ | heq := serve_cases s k act <;> rw [heq]
  · exact hact q hq hnode hkind
  · exact .stays

theorem bareReply_move {q : Request} (hq : headToServe s = some q) (r : Result) : AgentMove s (bareReply s q r) :=
  .answers q s r 0 0 hq .nothing

/-- A service that needs the session: only what it does in an OPEN session is left. -/
theorem sessionService_move {k : Kind} {act : State → Request → State}
    (hact : ∀ q, headToServe s = some q → destinationOf q.dest = some .node → kindOf q.kind = some k →
      AgentMove s (act s q)) : AgentMove s (serve s k (needsSession act)) := by
  refine serve_move fun q hq hnode hkind => ?_
  obtain ⟨-, heq⟩ | ⟨-, heq⟩ | ⟨-, heq⟩ := needsSession_cases act s q <;> rw [heq]
  · exact hact q hq hnode hkind
  · exact bareReply_move hq _
  · exact bareReply_move hq _

theorem serveUnknown_move : AgentMove s (serveUnknown s) := by
  unfold serveUnknown
  split
  · split
    · exact bareReply_move ‹_› _
    · exact .stays
  · exact .stays

theorem serveRead_move (target : ReadTarget) {q : Request} (hq : headToServe s = some q) :
    AgentMove s (serveRead target s q) := by
  unfold serveRead
  split
  · exact .answers q s _ _ _ hq .nothing
  · exact .stays

theorem serveOpen_move {q : Request} (hq : headToServe s = some q) : AgentMove s (serveOpen s q) := by
  unfold serveOpen
  split
  · exact bareReply_move hq _
  · split
    · exact bareReply_move hq _
    · exact .answers q _ _ _ _ hq (.opened _)

theorem serveWrite_move {q : Request} (hq : headToServe s = some q) : AgentMove s (serveWrite s q) := by
  unfold serveWrite
  split
  · exact bareReply_move hq _
  · exact .answers q _ _ _ _ hq (.written _ _ ‹_›)

theorem serveCommit_move {q : Request} (hq : headToServe s = some q) (hnode : destinationOf q.dest = some .node)
    (hkind : kindOf q.kind = some .commit) : AgentMove s (serveCommit s q) := by
  unfold serveCommit
  split
  · exact bareReply_move hq _
  · split
    · exact .answers q s _ _ _ hq .nothing
    · split
      · exact .answers q s _ _ _ hq .nothing
      · exact .startsCommit q hq hnode hkind

theorem serveDirect_move {q : Request} (hq : headToServe s = some q) : AgentMove s (serveDirect s q) := by
  unfold serveDirect
  split
  · exact .dispatches q hq
  · exact bareReply_move hq _

/-! ## Commits, node resets and direct notices (R164, R175, R182) -/

theorem completeCommit_move {u : State} (hu : Noted s u) : AgentMove s (completeCommit u) := by
  unfold completeCommit
  split
  · exact .endsCommit u hu ‹_›
  · exact .notes u hu

theorem completeNodeReset_move {u : State} (hu : Noted s u) : AgentMove s (completeNodeReset u) := by
  by_cases hreset : u.agent.nodeResetting = true
  · exact .endsReset u hu hreset
  · have hnone : completeNodeReset u = u := by simp [completeNodeReset, hreset]
    rw [hnone]
    exact .notes u hu

theorem takeMarkReport_move : AgentMove s (takeMarkReport s) := by
  unfold takeMarkReport
  split
  · exact completeCommit_move (.report _ _)
  · exact .stays

theorem takeMarkAck_move (source : Acknowledger) : AgentMove s (takeMarkAck source s) := by
  cases source <;> simp only [takeMarkAck] <;> split
  · exact completeCommit_move (.engineAck _)
  · exact .stays
  · exact completeCommit_move (.linesAck _)
  · exact .stays

theorem takeNodeResetAck_move (source : Acknowledger) : AgentMove s (takeNodeResetAck source s) := by
  cases source <;> simp only [takeNodeResetAck] <;> split
  · exact completeNodeReset_move (.engineAck _)
  · exact .stays
  · exact completeNodeReset_move (.linesAck _)
  · exact .stays

theorem dispatchNotice_move : AgentMove s (dispatchNotice s) := by
  unfold dispatchNotice
  split
  · exact .sends _ ‹_›
  · exact .stays

theorem takeNoticeAck_move : AgentMove s (takeNoticeAck s) := by
  unfold takeNoticeAck
  split
  · rename_i q _ a rest hq _
    unfold replyTableAck
    split <;> exact .acknowledges q _ rest s.paths.lineAcks _ _ _ hq
  · rename_i q _ o r rest hq _
    unfold replyLineAck
    split <;> exact .acknowledges q _ s.paths.tableAcks rest _ _ _ hq
  · exact .stays

/-! ## FRONT-addressed requests (R176) -/

theorem relayRequest_move {q : Request} (hq : headToServe s = some q) : AgentMove s (relayRequest s q) := by
  unfold relayRequest
  split
  · exact .relays q hq
  · exact .dispatches q hq

theorem serveFront_move : AgentMove s (serveFront s) := by
  unfold serveFront
  split
  case h_1 q hq =>
    split
    · obtain ⟨-, heq⟩ | ⟨-, heq⟩ | ⟨-, heq⟩ := needsSession_cases relayRequest s q <;> rw [heq]
      · exact relayRequest_move hq
      · exact bareReply_move hq _
      · exact bareReply_move hq _
    · exact .stays
  case h_2 => exact .stays

theorem completeRelay_move : AgentMove s (completeRelay s) := by
  unfold completeRelay
  split
  · dsimp only
    split
    · exact .relaysWaiting _ ‹_›
    · exact .frees
  · exact .stays

end Operations

/-! ## Every command of the Agent -/

/-- The state with the local timer at `l`. -/
def atTime (s : State) (l : Nat) : State := { s with clock := { s.clock with localTimer := l } }

theorem requestArrival_move (s : State) (dt : Nat) (q : Request) :
    ∃ l, AgentMove (atTime s l) (onLane s dt fun u => classifyArrival u q) := by
  obtain ⟨-, heq⟩ | ⟨-, heq⟩ := onLane_cases s dt fun u => classifyArrival u q <;> rw [heq]
  · rw [elapse_spec]
    exact ⟨_, classifyArrival_move _ q⟩
  · exact ⟨s.clock.localTimer, .stays⟩

theorem leaseExpires_move (s : State) : ∃ l, AgentMove (atTime s l) (leaseExpires s) := by
  have hstays : ∃ l, AgentMove (atTime s l) s := ⟨s.clock.localTimer, .stays⟩
  unfold leaseExpires
  split
  · exact hstays
  · split
    · exact ⟨_, .expires⟩
    · exact hstays

/-- Whatever a command of the Agent does is one of the moves. -/
theorem agent_move {c : Instr} {s t : State} (hc : blockOf c = .agent) (h : exec c s = .next t) :
    ∃ l, AgentMove (atTime s l) t := by
  have now {u : State} (hu : AgentMove s u) : ∃ l, AgentMove (atTime s l) u := ⟨s.clock.localTimer, hu⟩
  cases c <;> cases hc
  all_goals obtain rfl := Host.Outcome.next.inj h
  case requestArrival dt q => exact requestArrival_move s dt q
  case leaseExpiry => exact leaseExpires_move s
  all_goals apply now
  case unknownKindService => exact serveUnknown_move
  case openSession => exact serve_move fun _ hq _ _ => serveOpen_move hq
  case closeSession => exact sessionService_move fun q hq _ _ => .answers q _ _ _ _ hq .closed
  case renew => exact sessionService_move fun q hq _ _ => .answers q _ _ _ _ hq .nothing
  case revert => exact sessionService_move fun q hq _ _ => .answers q _ _ _ _ hq .reverted
  case write => exact sessionService_move fun _ hq _ _ => serveWrite_move hq
  case commit => exact sessionService_move fun _ hq hnode hkind => serveCommit_move hq hnode hkind
  case nodeReset => exact sessionService_move fun q hq hnode hkind => .startsReset q hq hnode hkind
  case arm | disarm | fireRequest | line => exact sessionService_move fun _ hq _ _ => serveDirect_move hq
  case readActive | readStaging | readHistory | readStateHistory | readStateCondition | readStateTrigger
      | readStateWindow | readStateLine | readStateEgress | readStateAgent | readCounters =>
    exact serve_move fun _ hq _ _ => serveRead_move _ hq
  case markRoundReport => exact takeMarkReport_move
  case markAck source => exact takeMarkAck_move source
  case dispatch => exact dispatchNotice_move
  case noticeAck => exact takeNoticeAck_move
  case nodeResetAck source => exact takeNodeResetAck_move source
  case frontRelay => exact serveFront_move
  case feCommandTxComplete => exact completeRelay_move

/-- R183: CLEAR_COUNTERS clears the counters, and is otherwise a service of the Agent too. -/
theorem clearing_move {c : Instr} {s t : State} (hc : blockOf c = .clearing) (h : exec c s = .next t) :
    ∃ x, AgentMove { s with counters := x } t := by
  cases c <;> cases hc
  case clearCounters =>
    obtain rfl := Host.Outcome.next.inj h
    obtain ⟨q, hq, -, -, heq⟩ | heq := serve_cases s .clearCounters (needsSession serveClearCounters) <;> rw [heq]
    · obtain ⟨-, heq⟩ | ⟨-, heq⟩ | ⟨-, heq⟩ := needsSession_cases serveClearCounters s q <;> rw [heq]
      · exact ⟨zeroCounters, .answers q _ _ _ _ hq .nothing⟩
      · exact ⟨s.counters, bareReply_move hq _⟩
      · exact ⟨s.counters, bareReply_move hq _⟩
    · exact ⟨s.counters, .stays⟩

end Sys2Proof.Machine
end

section
/-! R39, R42, R151: the unit law. The Condition Evaluator keeps each unit in range, and the Agent keeps the qualify
counts of both banks in theirs. -/

namespace Sys2Proof.Machine

/-! ## The banks -/

/-- What every accepted write keeps of a bank, a move of the Agent keeps of both banks. -/
theorem AgentMove.keeps_banks {P : Bank → Prop} {s t : State} (h : AgentMove s t)
    (hwrite : ∀ b c table index field v, writeBank b table index field v = some c → P b → P c)
    (hstaging : P s.agent.staging) (hactive : P s.agent.active) : P t.agent.staging ∧ P t.agent.active := by
  have hsame : P s.agent.staging ∧ P s.agent.active := ⟨hstaging, hactive⟩
  cases h
  case answers q u _ _ _ _ hu =>
    cases hu
    case nothing | closed => exact hsame
    case opened l => unfold openWith sendSessionOpen; split <;> exact hsame
    case written b _ hb => exact ⟨hwrite _ _ _ _ _ _ hb hstaging, hactive⟩
    case reverted => exact ⟨hactive, hactive⟩
  case sends x _ => cases x <;> exact hsame
  case notes hu => cases hu <;> exact hsame
  case endsCommit u hu _ =>
    unfold finishCommit
    cases hu <;> dsimp only <;> split <;> exact ⟨hstaging, hstaging⟩
  case endsReset u hu _ =>
    unfold completeNodeReset
    cases hu <;> dsimp only <;> split <;> (try split) <;> exact hsame
  all_goals exact hsame

/-- A written CHANNEL entry has its qualify count in range when it had before. -/
theorem writeChannel_qualify {e x : ChannelEntry} {field : Nat} {v : Word32} (h : writeChannel e field v = some x)
    (he : 1 ≤ e.qualify) : 1 ≤ x.qualify := by
  unfold writeChannel at h
  split at h
  case h_6 =>
    obtain ⟨n, hn, rfl⟩ := Option.map_eq_some_iff.1 h
    unfold rangeOf at hn
    split at hn
    case isTrue hrange => exact Option.some.inj hn ▸ hrange.1
    case isFalse => cases hn
  case h_7 => cases h
  all_goals
    obtain ⟨_, -, rfl⟩ := Option.map_eq_some_iff.1 h
    exact he

/-- R151: a write keeps the qualify counts of a bank in range. -/
theorem writeBank_qualify {b c : Bank} {table index field : Nat} {v : Word32}
    (h : writeBank b table index field v = some c) (hb : QualifyInRange b.channels) : QualifyInRange c.channels := by
  unfold writeBank at h
  split at h
  case h_1 =>
    obtain ⟨j, -, h⟩ := Option.bind_eq_some_iff.1 h
    obtain ⟨e, he, rfl⟩ := Option.map_eq_some_iff.1 h
    intro i
    show 1 ≤ ((b.channels.set j.val e j.isLt)[i.val]).qualify
    rw [Vector.getElem_set]
    split
    · exact writeChannel_qualify he (hb j)
    · exact hb i
  case h_5 =>
    split at h
    · obtain ⟨_, -, rfl⟩ := Option.map_eq_some_iff.1 h
      exact hb
    · cases h
  case h_6 => cases h
  all_goals
    obtain ⟨_, -, h⟩ := Option.bind_eq_some_iff.1 h
    obtain ⟨_, -, rfl⟩ := Option.map_eq_some_iff.1 h
    exact hb

theorem AgentMove.unitLaw {s t : State} (h : AgentMove s t) (hframe : t.evaluator = s.evaluator) (hs : UnitLaw s) :
    UnitLaw t := by
  obtain ⟨hunits, hentries, hstaging, hactive⟩ := hs
  obtain ⟨hstaging', hactive'⟩ := h.keeps_banks (P := fun b => QualifyInRange b.channels)
    (fun _ _ _ _ _ _ => writeBank_qualify) hstaging hactive
  rw [UnitLaw, hframe]
  exact ⟨hunits, hentries, hstaging', hactive'⟩

/-! ## One unit -/

/-- What a unit that evaluates keeps: its count is below Q, and in ACTIVE it has a last assert round. -/
def UnitRunning (e : ChannelEntry) (u : CondUnit) : Prop :=
  (∀ k, u.state = .qualifying k → 1 ≤ k ∧ k < e.qualify) ∧
  (u.state = .active → u.lastAssert ≠ none) ∧ u.assertCount ≤ 65535

theorem unitInRange_iff {e : ChannelEntry} {u : CondUnit} :
    UnitInRange e u ↔ (evaluating e = false → u.state = .idle ∧ u.previous = none) ∧ UnitRunning e u := Iff.rfl

theorem resetUnit_inRange (e : ChannelEntry) : UnitInRange e resetUnit :=
  ⟨fun _ => ⟨rfl, rfl⟩, nofun, nofun, Nat.zero_le _⟩

variable {e : ChannelEntry} {u : CondUnit}

theorem UnitRunning.to_idle (h : UnitRunning e u) : UnitRunning e { u with state := .idle } := ⟨nofun, nofun, h.2.2⟩

theorem assertUnit_running (e : ChannelEntry) (u : CondUnit) (r : Round) : UnitRunning e (assertUnit u r) :=
  ⟨nofun, fun _ => nofun, raiseCount_le _⟩

/-- R46: the count of a unit rises by one while it is below Q. -/
theorem UnitRunning.judgeIdle (h : UnitRunning e u) {k : Nat} (hk : k < e.qualify) (r : Round) (x : Int) :
    UnitRunning e (judgeIdle e u r k x).1 := by
  unfold Machine.judgeIdle qualifyUnit
  split
  · split
    · exact assertUnit_running e u r
    · refine ⟨?_, nofun, h.2.2⟩
      rintro n ⟨⟩
      omega
  · exact h.to_idle

theorem UnitRunning.judgeActive (h : UnitRunning e u) (r : Round) (x : Int) :
    UnitRunning e (judgeActive e u r x).1 := by
  unfold Machine.judgeActive
  split
  · exact h.to_idle
  · exact h

theorem UnitRunning.withoutSample (h : UnitRunning e u) : UnitRunning e (withoutSample u) := by
  unfold Machine.withoutSample
  split
  · exact h.to_idle
  · exact h
  · exact h

theorem UnitRunning.afterGap (h : UnitRunning e u) (gap : Nat) :
    UnitRunning e { u with state := afterGap u.state gap } := by
  have hcases : Machine.afterGap u.state gap = u.state ∨ Machine.afterGap u.state gap = .idle := by
    cases hu : u.state <;> simp only [Machine.afterGap, true_or]
    split
    · exact .inl rfl
    · exact .inr rfl
  obtain hsame | hidle := hcases
  · rw [hsame]; exact h
  · rw [hidle]; exact h.to_idle

theorem UnitRunning.transition (h : UnitRunning e u) (hq : 1 ≤ e.qualify) (r : Round) (gap : Nat)
    (value : Option Sample) : UnitRunning e (transition e u r gap value).1 := by
  have hv := h.afterGap gap
  unfold Machine.transition
  dsimp only
  split
  · exact hv.withoutSample
  · split
    · exact hv.judgeIdle hq r _
    · rename_i k hk
      exact hv.judgeIdle (hv.1 k hk).2 r _
    · exact hv.judgeActive r _

/-- R43: a record keeps a unit in range. -/
theorem stepUnit_inRange (h : UnitInRange e u) (hq : 1 ≤ e.qualify) (r : Round) (gap : Nat) (value : Option Sample) :
    UnitInRange e (stepUnit e u r gap value).1 := by
  unfold stepUnit
  split
  case isTrue heval =>
    exact unitInRange_iff.2 ⟨fun hinert => by simp [heval] at hinert, UnitRunning.transition h.2 hq r gap value⟩
  case isFalse => exact h

/-- R53: an inert unit is IDLE, and stays so. -/
theorem unitAtLost_inRange (h : UnitInRange e u) : UnitInRange e (unitAtLost u) := by
  refine ⟨fun hinert => ⟨?_, rfl⟩, UnitRunning.withoutSample h.2⟩
  show (withoutSample u).state = .idle
  simp [withoutSample, (h.1 hinert).1]

theorem unitAtRestart_inRange (h : UnitInRange e u) : UnitInRange e (unitAtRestart u) :=
  ⟨fun _ => ⟨rfl, rfl⟩, UnitRunning.to_idle h.2⟩

/-! ## Every step -/

variable {s t : State}

/-- The units become those that `f` gives, under the same entries. -/
theorem UnitLaw.of_units (h : UnitLaw s) {f : Fin 16 → CondUnit} (hagent : t.agent = s.agent)
    (hentries : t.evaluator.entries = s.evaluator.entries) (hunits : t.evaluator.units = Vector.ofFn f)
    (hf : ∀ i : Fin 16, UnitInRange (s.evaluator.entries.get i) (f i)) : UnitLaw t := by
  rw [UnitLaw, hagent, hentries, hunits]
  exact ⟨fun i => (get_ofFn f i).symm ▸ hf i, h.2⟩

theorem takeRecordEvaluation_unitLaw (h : UnitLaw s) : UnitLaw (takeRecordEvaluation s) := by
  unfold takeRecordEvaluation
  split
  · refine h.of_units rfl rfl rfl fun i => ?_
    rw [stepUnits, get_ofFn]
    exact stepUnit_inRange (h.1 i) (h.2.1 i) _ _ _
  · exact h

/-- A notice that changes each unit by `f`. -/
theorem changeUnits_unitLaw (h : UnitLaw s) (rest : List PathItem) (f : Fin 16 → CondUnit → CondUnit)
    (hf : ∀ i, UnitInRange (s.evaluator.entries.get i) (f i (s.evaluator.units.get i))) (x : VerdictItem) :
    UnitLaw (toTable (changeUnits (evaluatorTakes s rest) f) x) := by
  refine UnitLaw.of_units h (f := fun i => f i (s.evaluator.units.get i)) ?_ ?_ ?_ hf
  · rfl
  · rfl
  · rfl

/-- R55: an unchanged entry keeps its unit, a changed one comes from STAGING with a reset unit. -/
theorem evaluatorAdopts_unitLaw (h : UnitLaw s) (n : Epoch) : UnitLaw (evaluatorAdopts s n) := by
  obtain ⟨hunits, -, hstaging, hactive⟩ := h
  refine ⟨fun i => ?_, hstaging, hstaging, hactive⟩
  unfold evaluatorAdopts
  dsimp only
  rw [get_ofFn]
  split
  · rename_i hsame
    exact hsame ▸ hunits i
  · exact resetUnit_inRange _

theorem evaluator_unitLaw {c : Instr} (hc : blockOf c = .evaluator) (h : UnitLaw s) (ht : exec c s = .next t) :
    UnitLaw t := by
  cases c <;> cases hc
  all_goals obtain rfl := Host.Outcome.next.inj ht
  case recordEvaluation => exact takeRecordEvaluation_unitLaw h
  case evaluatorEpochMark =>
    unfold takeEvaluatorMark
    split
    · exact evaluatorAdopts_unitLaw (s := evaluatorTakes s _) h _
    · exact h
  case evaluatorLostNotice =>
    unfold takeEvaluatorLost
    split
    · exact changeUnits_unitLaw h _ _ (fun i => unitAtLost_inRange (h.1 i)) _
    · exact h
  case evaluatorRestartNotice =>
    unfold takeEvaluatorRestart
    split
    · exact changeUnits_unitLaw h _ _ (fun i => unitAtRestart_inRange (h.1 i)) _
    · exact h
  case evaluatorNodeResetNotice =>
    unfold takeEvaluatorNodeReset
    split
    · exact changeUnits_unitLaw h _ _ (fun i => resetUnit_inRange _) _
    · exact h

theorem reset_unitLaw : UnitLaw State.reset := by
  have hqualify : QualifyInRange (Vector.replicate 16 defaultChannel) := by
    intro i; revert i; decide
  have hunits (i : Fin 16) : State.reset.evaluator.units.get i = resetUnit := by
    revert i; decide
  exact ⟨fun i => hunits i ▸ resetUnit_inRange _, hqualify, hqualify, hqualify⟩

theorem exec_unitLaw {c : Instr} (h : UnitLaw s) (ht : exec c s = .next t) : UnitLaw t := by
  have hframe := exec_changesOnly ht
  cases hc : blockOf c <;> rw [hc] at hframe
  case power =>
    cases c <;> cases hc
    case powerOnReset => cases ht; exact reset_unitLaw
  case evaluator => exact evaluator_unitLaw hc h ht
  case agent =>
    obtain ⟨l, hmove⟩ := agent_move hc ht
    exact hmove.unitLaw (Eq.trans (congrArg State.evaluator hframe) rfl) h
  case clearing | clock | lanes | assembler | store | table | engine | lines | queue => rw [hframe]; exact h

/-- Settles O21: the Evaluator keeps its units in range, the Agent the qualify counts that they come to live under. -/
theorem unitLawKept : Obligations.UnitLawKept := by
  intro s t h ht
  unfold step at ht
  split at ht
  · cases ht; rw [elapse_spec]; exact h
  · rename_i c rest _
    have hrest : UnitLaw { s with pending := rest } := h
    exact exec_unitLaw hrest ht

end Sys2Proof.Machine
end

section
/-! R134, R145, R151, R172: the queue law. The cells and credits follow from the moves of the queue (`EgressMove`); the
request FIFO and the settings from the moves of the Agent and from `QueueMove`, which says what a command of the Egress
Queue does to the Agent and to what the Agent has sent it. -/

namespace Sys2Proof.Machine

/-! ## What the queue's commands do to the Agent's side -/

/-- R172: the Agent once the service of its head request has ended. -/
def serviceEnded (a : Agent) : Agent := { a with fifo := a.fifo.tail, phase := .free }

/-- What a command of the Egress Queue does with the Agent's offers and settings, its own waiting reply and live limit,
and the Agent. -/
inductive QueueMove (s t : State) : Prop
  | quiet (hagent : t.agent = s.agent) (hoffers : t.paths.agentOffers = s.paths.agentOffers)
      (hwaiting : t.egress.waitingReply = s.egress.waitingReply) (hlimit : t.egress.liveLimit = s.egress.liveLimit)
      (hsettings : t.paths.settings = s.paths.settings)
  | event (x : EventCell) (hagent : t.agent = s.agent)
      (hoffers : s.paths.agentOffers = .event x :: t.paths.agentOffers)
      (hwaiting : t.egress.waitingReply = s.egress.waitingReply) (hlimit : t.egress.liveLimit = s.egress.liveLimit)
      (hsettings : t.paths.settings = s.paths.settings)
  | admits (x : ReplyCell) (hagent : t.agent = serviceEnded s.agent)
      (hoffers : s.paths.agentOffers = .reply x :: t.paths.agentOffers)
      (hwaiting : t.egress.waitingReply = s.egress.waitingReply) (hlimit : t.egress.liveLimit = s.egress.liveLimit)
      (hsettings : t.paths.settings = s.paths.settings)
  | waits (x : ReplyCell) (hagent : t.agent = s.agent)
      (hoffers : s.paths.agentOffers = .reply x :: t.paths.agentOffers) (hnone : s.egress.waitingReply = none)
      (hwaiting : t.egress.waitingReply = some x) (hlimit : t.egress.liveLimit = s.egress.liveLimit)
      (hsettings : t.paths.settings = s.paths.settings)
  | starts (x : ReplyCell) (hagent : t.agent = serviceEnded s.agent)
      (hoffers : t.paths.agentOffers = s.paths.agentOffers) (hwaits : s.egress.waitingReply = some x)
      (hwaiting : t.egress.waitingReply = none) (hlimit : t.egress.liveLimit = s.egress.liveLimit)
      (hsettings : t.paths.settings = s.paths.settings)
  | adopts (x : QueueSettings) (hagent : t.agent = s.agent) (hoffers : t.paths.agentOffers = s.paths.agentOffers)
      (hwaiting : t.egress.waitingReply = s.egress.waitingReply) (hlimit : t.egress.liveLimit = x.liveLimit)
      (hsettings : s.paths.settings = x :: t.paths.settings)

theorem QueueMove.same (s : State) : QueueMove s s := .quiet rfl rfl rfl rfl rfl

/-- R139: an event of another block than the Agent. -/
theorem admitEvent_quiet {s u : State} (e : EventCell) (hagent : u.agent = s.agent)
    (hoffers : u.paths.agentOffers = s.paths.agentOffers)
    (hwaiting : u.egress.waitingReply = s.egress.waitingReply) (hlimit : u.egress.liveLimit = s.egress.liveLimit)
    (hsettings : u.paths.settings = s.paths.settings) : QueueMove s (admitEvent u e) := by
  obtain ⟨-, heq⟩ | ⟨-, -, heq⟩ | ⟨-, -, heq⟩ := admitEvent_cases u e <;> rw [heq] <;>
    exact .quiet hagent hoffers hwaiting hlimit hsettings

theorem takeEventOffer_queueMove (s : State) (source : EventSource) : QueueMove s (takeEventOffer source s) := by
  cases source
  case agent =>
    unfold takeEventOffer
    dsimp only
    split
    · rename_i e rest hoffers
      obtain ⟨-, heq⟩ | ⟨-, -, heq⟩ | ⟨-, -, heq⟩ := admitEvent_cases (queueTakesAgent s rest) e <;> rw [heq] <;>
        exact .event e rfl hoffers rfl rfl rfl
    · exact .same s
  all_goals
    unfold takeEventOffer
    dsimp only
    split
    · exact admitEvent_quiet _ rfl rfl rfl rfl rfl
    · exact .same s

/-- R140: a reply is admitted, or waits. -/
theorem takeReplyOffer_queueMove (s : State) : QueueMove s (takeReplyOffer s) := by
  unfold takeReplyOffer
  split
  · rename_i c rest hnone _ hoffers
    unfold offerReply
    split
    · exact .admits c rfl hoffers rfl rfl rfl
    · exact .waits c rfl hoffers hnone rfl rfl rfl
  · exact .same s

/-- R141: taking a cell out of the queue leaves the waiting reply and the live limit. -/
theorem chooseCell_keeps {q rest : Egress} {x : EgressCell} (h : chooseCell q = some (x, rest)) :
    rest.waitingReply = q.waitingReply ∧ rest.liveLimit = q.liveLimit := by
  unfold chooseCell at h
  split at h <;> cases h <;> exact ⟨rfl, rfl⟩

/-- R142: a start may take in the waiting reply. -/
theorem startTransmission_queueMove (s : State) : QueueMove s (startTransmission s) := by
  unfold startTransmission
  split
  · rename_i c q _ hchosen
    obtain ⟨hwaiting, hlimit⟩ := chooseCell_keeps hchosen
    split
    · unfold startSending admitWaiting
      dsimp only
      split
      · exact .quiet rfl rfl hwaiting hlimit rfl
      · rename_i x hwaits
        split
        · exact .starts x rfl rfl (hwaiting ▸ hwaits) rfl hlimit rfl
        · exact .quiet rfl rfl hwaiting hlimit rfl
    · exact .same s
  · exact .same s

theorem takeCreditNotice_queueMove (s : State) : QueueMove s (takeCreditNotice s) := by
  unfold takeCreditNotice
  split
  · unfold addCredits
    dsimp only
    split
    · exact .quiet rfl rfl rfl rfl rfl
    · exact admitEvent_quiet _ rfl rfl rfl rfl rfl
  · exact .same s

/-- Whatever a command of the queue does to the Agent's side is one of the moves. -/
theorem queue_move {c : Instr} {s t : State} (hc : blockOf c = .queue) (h : exec c s = .next t) : QueueMove s t := by
  cases c <;> cases hc
  all_goals obtain rfl := Host.Outcome.next.inj h
  case liveOffer =>
    unfold takeLiveOffer admitLive
    split
    · split <;> exact .quiet rfl rfl rfl rfl rfl
    · exact .same s
  case relayOffer =>
    unfold takeRelayOffer admitRelay
    split
    · split <;> exact .quiet rfl rfl rfl rfl rfl
    · exact .same s
  case eventOffer source => exact takeEventOffer_queueMove s source
  case replyOffer => exact takeReplyOffer_queueMove s
  case transmissionStart => exact startTransmission_queueMove s
  case transmissionCompletion =>
    unfold completeTransmission
    split <;> exact .quiet rfl rfl rfl rfl rfl
  case creditNotice => exact takeCreditNotice_queueMove s
  case settingsAdoption =>
    unfold takeSettings
    split
    · exact .adopts _ rfl rfl rfl rfl ‹_›
    · exact .same s

/-! ## Cells and credits -/

theorem cellsButTails_le_occupancy (q : Egress) : cellsButTails q ≤ occupancy q := by
  rw [occupancy_eq]
  omega

/-- R141: taking a cell out of the queue adds none. -/
theorem chooseCell_cellsButTails {q rest : Egress} {x : EgressCell} (h : chooseCell q = some (x, rest)) :
    cellsButTails rest ≤ cellsButTails q := by
  obtain ⟨hreplies, hevents, hwindows, hrelays, hlives⟩ := chooseCell_length_le h
  unfold cellsButTails
  omega

/-- R134, R145: every move of the queue keeps its cells other than tails within 250 and its credits within 1,023. -/
theorem EgressMove.keeps_capacity {c : Instr} {q r : Egress} (h : EgressMove q c r) (hlimit : q.liveLimit ≤ 240)
    (hcells : cellsButTails q ≤ 250) (hcredits : q.credits ≤ 1023) : cellsButTails r ≤ 250 ∧ r.credits ≤ 1023 := by
  cases h
  case same | wait | complete | settings => exact ⟨hcells, hcredits⟩
  case reset => exact ⟨Nat.zero_le _, Nat.zero_le _⟩
  case credit => exact ⟨hcells, Nat.min_le_right _ _⟩
  case tail x => exact ⟨by simpa [cellsButTails, isDataCell] using hcells, hcredits⟩
  case creditEvent n x hroom =>
    refine ⟨(cellsButTails_le_occupancy _).trans ?_, Nat.min_le_right _ _⟩
    simp only [occupancy, granted, List.length_append, List.length_singleton] at *
    omega
  case live | relay | event | reply | head | group =>
    refine ⟨(cellsButTails_le_occupancy _).trans ?_, hcredits⟩
    simp only [occupancy, List.length_append, List.length_singleton, List.length_map] at *
    omega
  case start x rest _ _ hx =>
    exact ⟨(chooseCell_cellsButTails hx).trans hcells, (Nat.sub_le _ _).trans hcredits⟩
  case startAndReply x rest y _ _ _ hroom =>
    refine ⟨(cellsButTails_le_occupancy _).trans ?_, (Nat.sub_le _ _).trans hcredits⟩
    simp only [occupancy, waitingAdmitted, sendingFrom, List.length_append, List.length_singleton] at *
    omega

/-! ## Requests and settings -/

/-- The rest of the queue law: the request FIFO and the live limits. -/
def RequestsInRange (s : State) : Prop :=
  s.agent.fifo.length ≤ 8 ∧ LimitInRange s.egress.liveLimit ∧ LimitInRange s.agent.staging.settings.liveLimit ∧
  LimitInRange s.agent.active.settings.liveLimit ∧ ∀ x ∈ s.paths.settings, LimitInRange x.liveLimit

theorem queueLaw_iff (s : State) :
    QueueLaw s ↔ cellsButTails s.egress ≤ 250 ∧ s.egress.credits ≤ 1023 ∧ RequestsInRange s := Iff.rfl

variable {s t : State}

theorem QueueMove.requestsInRange (h : QueueMove s t) (hs : RequestsInRange s) : RequestsInRange t := by
  obtain ⟨hfifo, hlive, hstaging, hactive, hsent⟩ := hs
  have htail : s.agent.fifo.tail.length ≤ 8 := by rw [List.length_tail]; omega
  unfold RequestsInRange
  cases h
  case quiet hagent _ _ hlimit hsettings | event hagent _ _ hlimit hsettings | waits hagent _ _ _ hlimit hsettings =>
    rw [hagent, hlimit, hsettings]
    exact ⟨hfifo, hlive, hstaging, hactive, hsent⟩
  case admits hagent _ _ hlimit hsettings | starts hagent _ _ _ hlimit hsettings =>
    rw [hagent, hlimit, hsettings]
    exact ⟨htail, hlive, hstaging, hactive, hsent⟩
  case adopts x hagent _ _ hlimit hsettings =>
    rw [hsettings, List.forall_mem_cons] at hsent
    rw [hagent, hlimit]
    exact ⟨hfifo, hsent.1, hstaging, hactive, hsent.2⟩

/-- R151: a write keeps the live limit of a bank in range. -/
theorem writeBank_liveLimit {b c : Bank} {table index field : Nat} {v : Word32}
    (h : writeBank b table index field v = some c) (hb : LimitInRange b.settings.liveLimit) :
    LimitInRange c.settings.liveLimit := by
  unfold writeBank at h
  split at h
  case h_5 =>
    split at h
    · obtain ⟨x, hx, rfl⟩ := Option.map_eq_some_iff.1 h
      unfold writeSettings at hx
      split at hx
      case h_2 =>
        obtain ⟨n, hn, rfl⟩ := Option.map_eq_some_iff.1 hx
        unfold rangeOf at hn
        split at hn
        case isTrue hrange => exact Option.some.inj hn ▸ hrange
        case isFalse => cases hn
      case h_4 => cases hx
      all_goals
        obtain ⟨_, -, rfl⟩ := Option.map_eq_some_iff.1 hx
        exact hb
    · cases h
  case h_6 => cases h
  all_goals
    obtain ⟨_, -, h⟩ := Option.bind_eq_some_iff.1 h
    obtain ⟨_, -, rfl⟩ := Option.map_eq_some_iff.1 h
    exact hb

/-- R172: a request joins the FIFO only below 8. -/
theorem AgentMove.fifo_length (h : AgentMove s t) (hs : s.agent.fifo.length ≤ 8) : t.agent.fifo.length ≤ 8 := by
  cases h
  case queues q e hroom =>
    show (s.agent.fifo ++ [q]).length ≤ 8
    rw [List.length_append, List.length_singleton]
    omega
  case answers hu =>
    cases hu
    case opened => unfold openWith sendSessionOpen; split <;> exact hs
    all_goals exact hs
  case sends x _ => cases x <;> exact hs
  case notes hu => cases hu <;> exact hs
  case endsCommit hu _ => unfold finishCommit; cases hu <;> dsimp only <;> split <;> exact hs
  case endsReset hu _ => unfold completeNodeReset; cases hu <;> dsimp only <;> split <;> (try split) <;> exact hs
  case relays | relaysWaiting =>
    show s.agent.fifo.tail.length ≤ 8
    rw [List.length_tail]
    omega
  all_goals exact hs

/-- R164: the settings that the Agent sends are those of STAGING, and it changes no limit of the queue's own. -/
theorem AgentMove.settings_sent (h : AgentMove s t) :
    t.egress = s.egress ∧
    ∀ x ∈ t.paths.settings, x ∈ s.paths.settings ∨ x.liveLimit = s.agent.staging.settings.liveLimit := by
  cases h
  case answers hu =>
    cases hu
    case opened => unfold openWith sendSessionOpen; split <;> exact ⟨rfl, fun _ => .inl⟩
    all_goals exact ⟨rfl, fun _ => .inl⟩
  case sends x _ => cases x <;> exact ⟨rfl, fun _ => .inl⟩
  case notes hu => cases hu <;> exact ⟨rfl, fun _ => .inl⟩
  case endsCommit hu _ =>
    have hsent (y : QueueSettings) (hy : y.liveLimit = s.agent.staging.settings.liveLimit) :
        ∀ x ∈ s.paths.settings ++ [y], x ∈ s.paths.settings ∨ x.liveLimit = s.agent.staging.settings.liveLimit := by
      intro x hx
      obtain hx | hx := List.mem_append.1 hx
      · exact .inl hx
      · exact .inr (List.mem_singleton.1 hx ▸ hy)
    unfold finishCommit
    cases hu <;> dsimp only <;> split <;> exact ⟨rfl, hsent _ rfl⟩
  case endsReset hu _ =>
    unfold completeNodeReset
    cases hu <;> dsimp only <;> split <;> (try split) <;> exact ⟨rfl, fun _ => .inl⟩
  all_goals exact ⟨rfl, fun _ => .inl⟩

theorem AgentMove.requestsInRange (h : AgentMove s t) (hs : RequestsInRange s) : RequestsInRange t := by
  obtain ⟨hfifo, hlive, hstaging, hactive, hsent⟩ := hs
  obtain ⟨hstaging', hactive'⟩ := h.keeps_banks (P := fun b => LimitInRange b.settings.liveLimit)
    (fun _ _ _ _ _ _ => writeBank_liveLimit) hstaging hactive
  obtain ⟨hegress, hsettings⟩ := h.settings_sent
  refine ⟨h.fifo_length hfifo, hegress ▸ hlive, hstaging', hactive', fun x hx => ?_⟩
  obtain hold | hnew := hsettings x hx
  · exact hsent x hold
  · exact hnew ▸ hstaging

/-! ## Every step -/

theorem reset_queueLaw : QueueLaw State.reset := by
  have hlimit : LimitInRange 128 := ⟨by decide, by decide⟩
  exact ⟨Nat.zero_le _, Nat.zero_le _, Nat.zero_le _, hlimit, hlimit, hlimit, nofun⟩

theorem exec_queueLaw {c : Instr} (h : QueueLaw s) (ht : exec c s = .next t) : QueueLaw t := by
  obtain ⟨hcells, hcredits, hrest⟩ := (queueLaw_iff s).1 h
  obtain ⟨hcells', hcredits'⟩ := (exec_egressMove ht).keeps_capacity hrest.2.1.2 hcells hcredits
  refine (queueLaw_iff t).2 ⟨hcells', hcredits', ?_⟩
  have hframe := exec_changesOnly ht
  cases hc : blockOf c <;> rw [hc] at hframe
  case power =>
    cases c <;> cases hc
    case powerOnReset => cases ht; exact reset_queueLaw.2.2
  case queue => exact (queue_move hc ht).requestsInRange hrest
  case agent =>
    obtain ⟨l, hmove⟩ := agent_move hc ht
    exact hmove.requestsInRange hrest
  case clearing =>
    obtain ⟨x, hmove⟩ := clearing_move hc ht
    exact hmove.requestsInRange hrest
  case clock | lanes | assembler | store | evaluator | table | engine | lines => rw [hframe]; exact hrest

/-- Settles O42: the queue's moves keep its capacity, the Agent's and the queue's moves keep the requests and limits. -/
theorem queueLawKept : Obligations.QueueLawKept := by
  intro s t h ht
  unfold step at ht
  split at ht
  · cases ht; rw [elapse_spec]; exact h
  · rename_i c rest _
    have hrest : QueueLaw { s with pending := rest } := h
    exact exec_queueLaw hrest ht

end Sys2Proof.Machine
end

section
/-! R172, R173: the reply law. Only the moves of the Agent and of the Egress Queue touch what it reads. -/

namespace Sys2Proof.Machine

/-! ## Replies outstanding -/

/-- What the law reads, apart from the Agent: the offers of the Agent and the waiting reply. -/
theorem repliesOut_congr {s t : State} (hoffers : t.paths.agentOffers = s.paths.agentOffers)
    (hwaiting : t.egress.waitingReply = s.egress.waitingReply) : repliesOut t = repliesOut s := by
  rw [repliesOut, repliesOut, hoffers, hwaiting]

/-- R173: a reply that the Agent offers is outstanding. -/
theorem repliesOut_reply (s : State) (q : Request) (r : Result) (value aux : Word32) :
    repliesOut (reply s q r value aux) = repliesOut s + 1 := by
  simp only [repliesOut, reply, agentOffer_paths, agentOffer_egress, List.filter_append, List.length_append]
  simp
  omega

theorem repliesOut_front_event {s t : State} {x : EventCell}
    (hoffers : s.paths.agentOffers = .event x :: t.paths.agentOffers)
    (hwaiting : t.egress.waitingReply = s.egress.waitingReply) : repliesOut t = repliesOut s := by
  rw [repliesOut, repliesOut, hoffers, hwaiting]
  simp

theorem repliesOut_front_reply {s t : State} {x : ReplyCell}
    (hoffers : s.paths.agentOffers = .reply x :: t.paths.agentOffers)
    (hwaiting : t.egress.waitingReply = s.egress.waitingReply) : repliesOut s = repliesOut t + 1 := by
  rw [repliesOut, repliesOut, hoffers, hwaiting]
  simp
  omega

/-- R140: a reply that waits is still outstanding. -/
theorem repliesOut_waits {s t : State} {x : ReplyCell}
    (hoffers : s.paths.agentOffers = .reply x :: t.paths.agentOffers) (hnone : s.egress.waitingReply = none)
    (hwaiting : t.egress.waitingReply = some x) : repliesOut t = repliesOut s := by
  rw [repliesOut, repliesOut, hoffers, hwaiting, hnone]
  simp

theorem repliesOut_starts {s t : State} {x : ReplyCell} (hoffers : t.paths.agentOffers = s.paths.agentOffers)
    (hwaits : s.egress.waitingReply = some x) (hwaiting : t.egress.waitingReply = none) :
    repliesOut s = repliesOut t + 1 := by
  rw [repliesOut, repliesOut, hoffers, hwaiting, hwaits]
  simp

theorem repliesOut_event (s : State) (e : EventCell) : repliesOut (agentOffer s (.event e)) = repliesOut s := by
  simp [repliesOut]

/-! ## The queue's moves -/

variable {s t : State}

/-- The law reads the Agent and the number of replies outstanding only. -/
theorem ReplyLaw.congr (h : ReplyLaw s) (hagent : t.agent = s.agent) (hout : repliesOut t = repliesOut s) :
    ReplyLaw t := by
  rw [ReplyLaw, hout, headKind, hagent]
  exact h

/-- R172: with a reply outstanding and then none, the service of the head request has ended. -/
theorem ReplyLaw.serviceEnded (h : ReplyLaw s) (hagent : t.agent = serviceEnded s.agent)
    (hout : repliesOut s = repliesOut t + 1) : ReplyLaw t := by
  obtain ⟨hone, -, hcommit, hreset⟩ := h
  have hphase : s.agent.phase = .awaitingRoom := by
    by_contra hne
    rw [if_neg hne] at hone
    omega
  rw [if_pos hphase] at hone
  have hnone : repliesOut t = 0 := by omega
  rw [ReplyLaw, hnone, hagent]
  refine ⟨rfl, fun hne => absurd rfl hne, fun hc => ?_, fun hc => ?_⟩
  · have := (hcommit hc).1
    rw [hphase] at this
    cases this
  · have := (hreset hc).1
    rw [hphase] at this
    cases this

theorem QueueMove.replyLaw (h : QueueMove s t) (hs : ReplyLaw s) : ReplyLaw t := by
  cases h
  case quiet hagent hoffers hwaiting _ _ | adopts hagent hoffers hwaiting _ _ =>
    exact hs.congr hagent (repliesOut_congr hoffers hwaiting)
  case event hagent hoffers hwaiting _ _ => exact hs.congr hagent (repliesOut_front_event hoffers hwaiting)
  case admits hagent hoffers hwaiting _ _ => exact hs.serviceEnded hagent (repliesOut_front_reply hoffers hwaiting)
  case waits hagent hoffers hnone hwaiting _ _ => exact hs.congr hagent (repliesOut_waits hoffers hnone hwaiting)
  case starts hagent hoffers hwaits hwaiting _ _ =>
    exact hs.serviceEnded hagent (repliesOut_starts hoffers hwaits hwaiting)

/-! ## The Agent's moves -/

/-- No reply is out, no commit or node reset is in progress, and a request is at the head of the FIFO. -/
structure Answerable (s : State) : Prop where
  quiet  : repliesOut s = 0
  commit : s.agent.committing = false
  reset  : s.agent.nodeResetting = false
  head   : s.agent.fifo ≠ []

theorem ReplyLaw.none_out (h : ReplyLaw s) (hphase : s.agent.phase ≠ .awaitingRoom) : repliesOut s = 0 := by
  have hone := h.1
  rwa [if_neg hphase] at hone

/-- A commit or node reset waits for acknowledgements; in another phase there is none. -/
theorem ReplyLaw.idle (h : ReplyLaw s) (hphase : s.agent.phase ≠ .awaitingAck) :
    s.agent.committing = false ∧ s.agent.nodeResetting = false := by
  obtain ⟨-, -, hcommit, hreset⟩ := h
  constructor
  · by_contra hc
    exact hphase (hcommit (by simpa using hc)).1
  · by_contra hc
    exact hphase (hreset (by simpa using hc)).1

theorem fifo_ne_nil_of_head {a : Agent} {q : Request} (h : a.fifo.head? = some q) : a.fifo ≠ [] := by
  rintro hnil
  rw [hnil] at h
  cases h

theorem ReplyLaw.answerable_of_serve (h : ReplyLaw s) {q : Request} (hq : headToServe s = some q) : Answerable s := by
  obtain ⟨hphase, hreset, hcommit, hhead⟩ := headToServe_eq hq
  exact ⟨h.none_out (by rw [hphase]; nofun), hcommit, hreset, fifo_ne_nil_of_head hhead⟩

/-- What a service does before its reply leaves the request at the head, with nothing in progress. -/
theorem Answerable.prepared (h : Answerable s) {q : Request} {u : State} (hu : Prepared s q u) : Answerable u := by
  obtain ⟨hquiet, hcommit, hreset, hhead⟩ := h
  cases hu
  case opened => unfold openWith sendSessionOpen; split <;> exact ⟨hquiet, hcommit, hreset, hhead⟩
  all_goals exact ⟨hquiet, hcommit, hreset, hhead⟩

theorem Answerable.reply_replyLaw (h : Answerable s) (q : Request) (r : Result) (value aux : Word32) :
    ReplyLaw (reply s q r value aux) := by
  refine ⟨by rw [repliesOut_reply, h.quiet]; rfl, fun _ => h.head, fun hc => ?_, fun hc => ?_⟩
  · exact absurd (h.commit.symm.trans hc) nofun
  · exact absurd (h.reset.symm.trans hc) nofun

/-- The Agent goes to another phase than AWAITING ROOM, without a reply. -/
theorem Answerable.enters (h : Answerable s) {p : Phase} (hp : p ≠ .awaitingRoom)
    (hagent : t.agent = { s.agent with phase := p }) (hoffers : t.paths.agentOffers = s.paths.agentOffers)
    (hwaiting : t.egress.waitingReply = s.egress.waitingReply) : ReplyLaw t := by
  rw [ReplyLaw, repliesOut_congr hoffers hwaiting, h.quiet, hagent]
  refine ⟨(if_neg hp).symm, fun _ => h.head, fun hc => ?_, fun hc => ?_⟩
  · exact absurd (h.commit.symm.trans hc) nofun
  · exact absurd (h.reset.symm.trans hc) nofun

/-- R176: the head request leaves the FIFO without a reply. -/
theorem Answerable.startRelay_replyLaw (h : Answerable s) (q : Request) : ReplyLaw (startRelay s q) := by
  refine ⟨h.quiet, fun hne => absurd rfl hne, fun hc => ?_, fun hc => ?_⟩
  · exact absurd (h.commit.symm.trans hc) nofun
  · exact absurd (h.reset.symm.trans hc) nofun

/-- A request that waits to be dispatched or relayed has nothing else in progress. -/
theorem ReplyLaw.answerable_of_dispatching (h : ReplyLaw s) (hphase : s.agent.phase = .dispatching) : Answerable s := by
  obtain ⟨hcommit, hreset⟩ := h.idle (by rw [hphase]; nofun)
  exact ⟨h.none_out (by rw [hphase]; nofun), hcommit, hreset, h.2.1 (by rw [hphase]; nofun)⟩

theorem toDispatch_phase {x : DirectNotice} (h : toDispatch s = some x) : s.agent.phase = .dispatching := by
  unfold toDispatch at h
  split at h
  · assumption
  · cases h

theorem waitingRelay_phase {q : Request} (h : waitingRelay s = some q) : s.agent.phase = .dispatching := by
  unfold waitingRelay at h
  split at h
  · assumption
  · cases h

/-- R175: a direct notice is sent by ARM, DISARM, FIRE and LINE only. -/
theorem directNotice_kind {q : Request} {x : DirectNotice} (h : directNotice q = some x) :
    kindOf q.kind ≠ some .commit ∧ kindOf q.kind ≠ some .nodeReset := by
  constructor <;> intro hk <;> simp [directNotice, hk] at h

/-- R175: the request whose notice awaits its acknowledgement is neither a commit nor a node reset. -/
theorem ReplyLaw.answerable_of_awaitingNotice (h : ReplyLaw s) {q : Request} {x : DirectNotice}
    (hq : awaitingNotice s = some (q, x)) : Answerable s := by
  unfold awaitingNotice at hq
  split at hq
  case h_2 => cases hq
  case h_1 p hphase hhead =>
    split at hq
    case isFalse => cases hq
    case isTrue hnode =>
      obtain ⟨y, hy, hpair⟩ := Option.map_eq_some_iff.1 hq
      cases hpair
      obtain ⟨hnotCommit, hnotReset⟩ := directNotice_kind hy
      have hkind : headKind s = kindOf q.kind := by simp [headKind, hhead, hnode]
      obtain ⟨hquiet, hfifo, hcommit, hreset⟩ := h
      refine ⟨by simpa [hphase] using hquiet, ?_, ?_, hfifo (by rw [hphase]; nofun)⟩
      · by_contra hc
        exact hnotCommit (hkind ▸ (hcommit (by simpa using hc)).2)
      · by_contra hc
        exact hnotReset (hkind ▸ (hreset (by simpa using hc)).2)

/-- R170: a request that joins the FIFO leaves the request in service at its head. -/
theorem ReplyLaw.queues (h : ReplyLaw s) (q : Request) (e : Option Nat) :
    ReplyLaw { s with agent := { s.agent with fifo := s.agent.fifo ++ [q], leaseExpiry := e } } := by
  obtain ⟨hone, hfifo, hcommit, hreset⟩ := h
  have hhead (hphase : s.agent.phase = .awaitingAck) :
      headKind { s with agent := { s.agent with fifo := s.agent.fifo ++ [q], leaseExpiry := e } } = headKind s := by
    obtain ⟨y, ys, hys⟩ := List.exists_cons_of_ne_nil (hfifo (by rw [hphase]; nofun))
    simp [headKind, hys]
  refine ⟨hone, fun _ => by simp, fun hc => ?_, fun hc => ?_⟩
  · obtain ⟨hphase, hkind⟩ := hcommit hc
    exact ⟨hphase, (hhead hphase).trans hkind⟩
  · obtain ⟨hphase, hkind⟩ := hreset hc
    exact ⟨hphase, (hhead hphase).trans hkind⟩

theorem ReplyLaw.noted (h : ReplyLaw s) {u : State} (hu : Noted s u) : ReplyLaw u := by
  cases hu <;> exact h

/-- R164: with the commit in progress over, its request is answered. -/
theorem ReplyLaw.finishCommit (h : ReplyLaw s) (hc : s.agent.committing = true) : ReplyLaw (finishCommit s) := by
  obtain ⟨-, hfifo, hcommit, hreset⟩ := id h
  obtain ⟨hphase, hkind⟩ := hcommit hc
  have hnotReset : s.agent.nodeResetting = false := by
    by_contra hr
    have := (hreset (by simpa using hr)).2
    rw [hkind] at this
    cases this
  unfold Machine.finishCommit
  dsimp only
  split
  · refine Answerable.reply_replyLaw ?_ _ _ _ _
    exact ⟨h.none_out (by rw [hphase]; nofun), rfl, hnotReset, hfifo (by rw [hphase]; nofun)⟩
  · rename_i hnone
    exact absurd (List.head?_eq_none_iff.1 hnone) (hfifo (by rw [hphase]; nofun))

/-- R182: with the node reset in progress over, its request is answered. -/
theorem ReplyLaw.completeNodeReset (h : ReplyLaw s) (hr : s.agent.nodeResetting = true) :
    ReplyLaw (completeNodeReset s) := by
  obtain ⟨-, hfifo, hcommit, hreset⟩ := id h
  obtain ⟨hphase, hkind⟩ := hreset hr
  have hnotCommit : s.agent.committing = false := by
    by_contra hc
    have := (hcommit (by simpa using hc)).2
    rw [hkind] at this
    cases this
  unfold Machine.completeNodeReset
  split
  · dsimp only
    split
    · refine Answerable.reply_replyLaw ?_ _ _ _ _
      exact ⟨h.none_out (by rw [hphase]; nofun), hnotCommit, rfl, hfifo (by rw [hphase]; nofun)⟩
    · rename_i hnone
      exact absurd (List.head?_eq_none_iff.1 hnone) (hfifo (by rw [hphase]; nofun))
  · exact h

/-- R161, R182: a commit or node reset starts with its request at the head, and waits for acknowledgements. -/
theorem ReplyLaw.starts (h : ReplyLaw s) {q : Request} (hq : headToServe s = some q)
    (hnode : destinationOf q.dest = some .node) :
    (kindOf q.kind = some .commit → ReplyLaw (startCommit s)) ∧
    (kindOf q.kind = some .nodeReset → ReplyLaw (serveNodeReset s q)) := by
  obtain ⟨hquiet, hcommit, hreset, hfifo⟩ := h.answerable_of_serve hq
  obtain ⟨-, -, -, hhead⟩ := headToServe_eq hq
  have hkind : headKind s = kindOf q.kind := by simp [headKind, hhead, hnode]
  constructor <;> intro hk
  · exact ⟨hquiet, fun _ => hfifo, fun _ => ⟨rfl, hkind.trans hk⟩, fun hc => absurd (hreset.symm.trans hc) nofun⟩
  · exact ⟨hquiet, fun _ => hfifo, fun hc => absurd (hcommit.symm.trans hc) nofun, fun _ => ⟨rfl, hkind.trans hk⟩⟩

theorem AgentMove.replyLaw (h : AgentMove s t) (hs : ReplyLaw s) : ReplyLaw t := by
  cases h
  case stays | counts | grants | renews | frees => exact hs
  case queues q e _ => exact hs.queues q e
  case answers q u r value aux hq hu => exact ((hs.answerable_of_serve hq).prepared hu).reply_replyLaw q r value aux
  case dispatches q hq => exact (hs.answerable_of_serve hq).enters (p := .dispatching) nofun rfl rfl rfl
  case sends x hx =>
    have hready := hs.answerable_of_dispatching (toDispatch_phase hx)
    cases x <;> exact hready.enters (p := .awaitingAck) nofun rfl rfl rfl
  case acknowledges q x tables lines r value aux hq =>
    obtain ⟨hquiet, hcommit, hreset, hhead⟩ := hs.answerable_of_awaitingNotice hq
    exact Answerable.reply_replyLaw ⟨hquiet, hcommit, hreset, hhead⟩ q r value aux
  case startsCommit q hq hnode hkind => exact (hs.starts hq hnode).1 hkind
  case startsReset q hq hnode hkind => exact (hs.starts hq hnode).2 hkind
  case notes hu => exact hs.noted hu
  case endsCommit hu hready =>
    simp only [commitReady, Bool.and_eq_true] at hready
    exact (hs.noted hu).finishCommit hready.1.1.1
  case endsReset hu hr => exact (hs.noted hu).completeNodeReset hr
  case relays q hq => exact (hs.answerable_of_serve hq).startRelay_replyLaw q
  case relaysWaiting q hq =>
    obtain ⟨hquiet, hcommit, hreset, hhead⟩ := hs.answerable_of_dispatching (waitingRelay_phase hq)
    exact Answerable.startRelay_replyLaw ⟨hquiet, hcommit, hreset, hhead⟩ q
  case expires => exact ⟨(repliesOut_event _ _).trans hs.1, hs.2⟩

/-! ## Every step -/

theorem reset_replyLaw : ReplyLaw State.reset := ⟨rfl, fun hne => absurd rfl hne, nofun, nofun⟩

theorem exec_replyLaw {c : Instr} (h : ReplyLaw s) (ht : exec c s = .next t) : ReplyLaw t := by
  have hframe := exec_changesOnly ht
  cases hc : blockOf c <;> rw [hc] at hframe
  case power =>
    cases c <;> cases hc
    case powerOnReset => cases ht; exact reset_replyLaw
  case queue => exact (queue_move hc ht).replyLaw h
  case agent =>
    obtain ⟨l, hmove⟩ := agent_move hc ht
    exact hmove.replyLaw h
  case clearing =>
    obtain ⟨x, hmove⟩ := clearing_move hc ht
    exact hmove.replyLaw h
  case clock | lanes | assembler | store | evaluator | table | engine | lines => rw [hframe]; exact h

/-- Settles O59: the moves of the Agent and of the queue offer, take in and end one reply at a time. -/
theorem replyLawKept : Obligations.ReplyLawKept := by
  intro s t h ht
  unfold step at ht
  split at ht
  · cases ht; rw [elapse_spec]; exact h
  · rename_i c rest _
    have hrest : ReplyLaw { s with pending := rest } := h
    exact exec_replyLaw hrest ht

end Sys2Proof.Machine
end

section
/-! What a command of the Window Engine does: `EngineTakes` lists the events of the engine up to their service pass,
`EngineMove` the commands, and `engine_move` says that every command of the engine is one of these. -/

namespace Sys2Proof.Machine

open Stated

/-! ## Open requests -/

/-- R93: the window that an open request creates joins the list. -/
def windowCreated (s : State) (q : OpenRequest) : State :=
  let id := freeId s.engine.windows s.engine.windows.length s.engine.nextId
  { s with
    engine := { s.engine with
      windows := s.engine.windows ++ [placedWindow s (freshWindow s q id)]
      nextId := id + 1 }
    counters := { s.counters with windowsOpened := raise s.counters.windowsOpened 1 } }

/-- R91: window `w` is extended by a retrigger at round `t`. -/
def windowExtended (s : State) (w : Window) (t : Round) : State :=
  updateWindow { s with counters := { s.counters with windowsExtended := raise s.counters.windowsExtended 1 } } w.id
    fun x => { x with last := extendCandidate w t, flags := { x.flags with extended := true } }

/-- R90 to R94: all that an open request can do. -/
inductive OpenOutcome (s : State) (q : OpenRequest) : State → Prop
  | held : s.engine.held = true → OpenOutcome s q (refuseOpen s q 1)
  | full : s.engine.held = false → 6 ≤ s.engine.windows.length → OpenOutcome s q (refuseOpen s q 2)
  | ignored : s.engine.held = false → OpenOutcome s q (ignoreRetrigger s)
  | extended (w : Window) : s.engine.held = false → w ∈ s.engine.windows → isMatch q w = true →
      OpenOutcome s q (windowExtended s w q.round)
  | created : s.engine.held = false → s.engine.windows.length < 6 → OpenOutcome s q (windowCreated s q)

theorem createWindow_outcome (s : State) (q : OpenRequest) (hheld : s.engine.held = false) :
    OpenOutcome s q (createWindow s q) := by
  unfold createWindow
  split
  · exact .full hheld ‹_›
  · rename_i hroom
    exact .created hheld (by simpa [Config.windowSlots] using hroom)

theorem takeOpen_outcome (s : State) (q : OpenRequest) : OpenOutcome s q (takeOpen q s) := by
  unfold takeOpen
  split
  · exact .held ‹_›
  · rename_i hheld
    have hheld' : s.engine.held = false := by simpa using hheld
    split
    · rename_i w _ hlast
      have hmem := List.mem_filter.1 (List.mem_of_getLast? hlast)
      unfold extendWindow
      split
      · exact .extended w hheld' hmem.1 hmem.2
      · exact .ignored hheld'
    · exact .ignored hheld'
    · exact createWindow_outcome s q hheld'
    · exact createWindow_outcome s q hheld'
    · exact createWindow_outcome s q hheld'

/-! ## The events -/

/-- The engine takes the front item of one of its paths and does what its kind asks. -/
inductive EngineTakes (s : State) : State → Prop
  | request (q : OpenRequest) (rest : List EngineItem) (u : State) : s.paths.tableToEngine = .request q :: rest →
      OpenOutcome { s with paths := { s.paths with tableToEngine := rest } } q u → EngineTakes s u
  | mark (e : Epoch) (rest : List EngineItem) : s.paths.tableToEngine = .mark e :: rest →
      EngineTakes s (takeEngineMark e { s with paths := { s.paths with tableToEngine := rest } })
  | nodeReset (rest : List EngineItem) : s.paths.tableToEngine = .nodeReset :: rest →
      EngineTakes s (takeEngineNodeReset { s with paths := { s.paths with tableToEngine := rest } })
  | stored (r : Round) (rest : List StoreNotice) : s.paths.storeToEngine = .stored r :: rest →
      EngineTakes s (takeStored r { s with paths := { s.paths with storeToEngine := rest } })
  | overwritten (r : Round) (rest : List StoreNotice) : s.paths.storeToEngine = .overwritten r :: rest →
      EngineTakes s { s with paths := { s.paths with storeToEngine := rest } }
  | lost (n : Round) (rest : List StoreNotice) : s.paths.storeToEngine = .lost n :: rest →
      EngineTakes s (takeLost n { s with paths := { s.paths with storeToEngine := rest } })
  | flushedRestart (rest : List StoreNotice) : s.paths.storeToEngine = .flushedRestart :: rest →
      EngineTakes s (takeFlushedRestart { s with paths := { s.paths with storeToEngine := rest } })
  | flushedNodeReset (rest : List StoreNotice) : s.paths.storeToEngine = .flushedNodeReset :: rest →
      EngineTakes s (takeFlushedNodeReset { s with paths := { s.paths with storeToEngine := rest } })
  | room (rest : List QueueNotice) : s.paths.queueToEngine = .room :: rest →
      EngineTakes s { s with paths := { s.paths with queueToEngine := rest } }
  | tailTransmitted (i : WindowId) (rest : List QueueNotice) : s.paths.queueToEngine = .tailTransmitted i :: rest →
      EngineTakes s (releaseSlot i { s with paths := { s.paths with queueToEngine := rest } })
  | safeState (rest : List EngineNotice) : s.paths.agentToEngine = .safeState :: rest →
      EngineTakes s (takeEngineSafeState { s with paths := { s.paths with agentToEngine := rest } })
  | sessionOpen (rest : List EngineNotice) : s.paths.agentToEngine = .sessionOpen :: rest →
      EngineTakes s (takeEngineSessionOpen { s with paths := { s.paths with agentToEngine := rest } })

/-- What a command of the Window Engine, or the queue's answer to one of its offers, makes of the state. -/
inductive EngineMove (s : State) : State → Prop
  | stays : EngineMove s s
  | event (u : State) : s.engine.pass = none → EngineTakes s u → EngineMove s (thenPass s u)
  | headAdmitted (x : WinHead) (rest : List EngineOffer) : s.paths.engineOffers = .head x :: rest →
      EngineMove s (resumePass (updateWindow (admitWindow (queueTakesEngine s rest) [.head x]) x.id
        fun w => { w with headSent := true }))
  | groupAdmitted (g : List WinSample) (rest : List EngineOffer) : s.paths.engineOffers = .group g :: rest →
      EngineMove s (resumePass (groupEmitted (admitWindow (queueTakesEngine s rest) (g.map .sample)) g))
  | tailAdmitted (x : WinTail) (rest : List EngineOffer) : s.paths.engineOffers = .tail x :: rest →
      EngineMove s (resumePass (updateWindow (admitWindow (queueTakesEngine s rest) [.tail x]) x.id
        fun w => { w with state := .closed }))
  | declined (x : EngineOffer) (rest : List EngineOffer) : s.paths.engineOffers = x :: rest →
      isWindowOffer x = true → (∀ y, x ≠ .tail y) → EngineMove s (endPass (queueTakesEngine s rest))

variable {s t : State}

/-- An event taken from a path, by its shared form (`onTablePath_cases` and the like). -/
theorem pathEvent_move {α : Type} {items : List α} {f : α → Option (State → State)} {pop : List α → State}
    (hcases : (∃ x rest act, s.engine.pass = none ∧ items = x :: rest ∧ f x = some act ∧
      t = engineEvent (pop rest) act) ∨ t = s)
    (hview : ∀ rest, viewOf (pop rest) = viewOf s)
    (htakes : ∀ x rest act, items = x :: rest → f x = some act → EngineTakes s (act (pop rest))) : EngineMove s t := by
  obtain ⟨x, rest, act, hpass, hitems, hact, rfl⟩ | rfl := hcases
  · have hevent : engineEvent (pop rest) act = thenPass s (act (pop rest)) := by
      unfold engineEvent
      rw [hview]
      rfl
    rw [hevent]
    exact .event _ hpass (htakes x rest act hitems hact)
  · exact .stays

theorem takeWinHead_move (s : State) : EngineMove s (takeWinHead s) := by
  unfold takeWinHead
  split
  · dsimp only
    split
    · exact .headAdmitted _ _ ‹_›
    · exact .declined _ _ ‹_› rfl (by rintro _ ⟨⟩)
  · exact .stays

theorem takeWinGroup_move (s : State) : EngineMove s (takeWinGroup s) := by
  unfold takeWinGroup
  split
  · dsimp only
    split
    · exact .groupAdmitted _ _ ‹_›
    · exact .declined _ _ ‹_› rfl (by rintro _ ⟨⟩)
  · exact .stays

theorem takeWinTail_move (s : State) : EngineMove s (takeWinTail s) := by
  unfold takeWinTail
  split
  · exact .tailAdmitted _ _ ‹_›
  · exact .stays

/-- Whatever a command of the Window Engine does is one of the moves. -/
theorem engine_move {c : Instr} (hc : blockOf c = .engine) (h : exec c s = .next t) : EngineMove s t := by
  cases c <;> cases hc
  all_goals obtain rfl := Host.Outcome.next.inj h
  case openRequest =>
    refine pathEvent_move (onTablePath_cases s _) (fun _ => rfl) ?_
    rintro (q | _ | _) rest _ hitems ⟨⟩
    exact .request q rest _ hitems (takeOpen_outcome _ q)
  case windowEpochMark =>
    refine pathEvent_move (onTablePath_cases s _) (fun _ => rfl) ?_
    rintro (_ | e | _) rest _ hitems ⟨⟩
    exact .mark e rest hitems
  case windowNodeResetNotice =>
    refine pathEvent_move (onTablePath_cases s _) (fun _ => rfl) ?_
    rintro (_ | _ | _) rest _ hitems ⟨⟩
    exact .nodeReset rest hitems
  case storedNotice =>
    refine pathEvent_move (onStorePath_cases s _) (fun _ => rfl) ?_
    rintro (r | _ | _ | _ | _) rest _ hitems ⟨⟩
    exact .stored r rest hitems
  case overwrittenNotice =>
    refine pathEvent_move (onStorePath_cases s _) (fun _ => rfl) ?_
    rintro (_ | r | _ | _ | _) rest _ hitems ⟨⟩
    exact .overwritten r rest hitems
  case flushedRestartNotice =>
    refine pathEvent_move (onStorePath_cases s _) (fun _ => rfl) ?_
    rintro (_ | _ | _ | _ | _) rest _ hitems ⟨⟩
    exact .flushedRestart rest hitems
  case flushedNodeResetNotice =>
    refine pathEvent_move (onStorePath_cases s _) (fun _ => rfl) ?_
    rintro (_ | _ | _ | _ | _) rest _ hitems ⟨⟩
    exact .flushedNodeReset rest hitems
  case windowLostNotice =>
    refine pathEvent_move (onStorePath_cases s _) (fun _ => rfl) ?_
    rintro (_ | _ | _ | _ | n) rest _ hitems ⟨⟩
    exact .lost n rest hitems
  case roomNotice =>
    refine pathEvent_move (onQueuePath_cases s _) (fun _ => rfl) ?_
    rintro (_ | _) rest _ hitems ⟨⟩
    exact .room rest hitems
  case tailTransmittedNotice =>
    refine pathEvent_move (onQueuePath_cases s _) (fun _ => rfl) ?_
    rintro (i | _) rest _ hitems ⟨⟩
    exact .tailTransmitted i rest hitems
  case windowSafeState =>
    refine pathEvent_move (onAgentPath_cases s _) (fun _ => rfl) ?_
    rintro (_ | _) rest _ hitems ⟨⟩
    exact .safeState rest hitems
  case windowSessionOpen =>
    refine pathEvent_move (onAgentPath_cases s _) (fun _ => rfl) ?_
    rintro (_ | _) rest _ hitems ⟨⟩
    exact .sessionOpen rest hitems
  case winHeadOffer => exact takeWinHead_move s
  case winSampleGroupOffer => exact takeWinGroup_move s
  case winTailOffer => exact takeWinTail_move s

end Sys2Proof.Machine
end

section
/-! R99: the balance law. What a node reset has still to reach on the way to the Window Engine is counted path by path;
the starts that the Assembler has still to take count on both sides, so the Agent does not matter. -/

namespace Sys2Proof.Machine

open Stated

/-! ## The counts -/

/-- The node-reset notices on one of the Assembler's paths. -/
def resetsInPath (xs : List PathItem) : Nat := (xs.filterMap pathToken).count .nodeReset

/-- The node-reset notices and flushed notices between the Assembler and the Window Engine, by the History Store. -/
def storeSide (s : State) : Nat :=
  resetsInPath s.paths.asmToStore + s.paths.storeToEngine.count .flushedNodeReset

/-- The node-reset notices between the Assembler and the Window Engine, by the Trigger Table. -/
def tableSide (s : State) : Nat :=
  resetsInPath s.paths.asmToEvaluator + (s.paths.evaluatorToTable.filterMap verdictToken).count .nodeReset +
    (s.paths.tableToEngine.filterMap engineToken).count .nodeReset

/-- The reset balance once both sides have arrived. -/
def balanceToCome (s : State) : Int := s.engine.balance + tableSide s - storeSide s

/-- The starts count on both sides of the law, and so leave it as they leave the two paths. -/
theorem balanceLaw_iff (s : State) : BalanceLaw s ↔ balanceToCome s = 0 := by
  have hmarks : (s.asm.pendingMark.toList.map Token.mark).count .nodeReset = 0 := by
    cases s.asm.pendingMark <;> rfl
  simp only [BalanceLaw, resetsFromTable, resetsFromStore, beforeEngine, beforeTable, beforeEvaluator, beforeAssembler,
    balanceToCome, resetsInPath, storeSide, tableSide, List.count_append, hmarks]
  omega

/-- The node resets of a path, its front item apart. -/
theorem count_tokens_cons {α : Type} (f : α → Option Token) (x : α) (xs : List α) :
    ((x :: xs).filterMap f).count .nodeReset = (f x).toList.count .nodeReset + (xs.filterMap f).count .nodeReset := by
  cases hx : f x <;> simp [hx, List.count_cons, Nat.add_comm]

/-- The node resets of a path to which `ys` have been sent. -/
theorem count_tokens_append {α : Type} (f : α → Option Token) (xs ys : List α) :
    ((xs ++ ys).filterMap f).count .nodeReset =
      (xs.filterMap f).count .nodeReset + (ys.filterMap f).count .nodeReset := by
  rw [List.filterMap_append, List.count_append]

theorem resetsInPath_append (xs ys : List PathItem) :
    resetsInPath (xs ++ ys) = resetsInPath xs + resetsInPath ys := by
  simp [resetsInPath]

/-! ## The Round Assembler -/

/-- The Assembler has placed the same items on both of its paths. -/
def SendsAlike (s t : State) : Prop :=
  ∃ xs, t.paths.asmToStore = s.paths.asmToStore ++ xs ∧ t.paths.asmToEvaluator = s.paths.asmToEvaluator ++ xs

theorem SendsAlike.of_same {s t : State} (hstore : t.paths.asmToStore = s.paths.asmToStore)
    (hevaluator : t.paths.asmToEvaluator = s.paths.asmToEvaluator) : SendsAlike s t :=
  ⟨[], by rw [hstore, List.append_nil], by rw [hevaluator, List.append_nil]⟩

theorem SendsAlike.refl (s : State) : SendsAlike s s := .of_same rfl rfl

theorem SendsAlike.trans {s t u : State} (hst : SendsAlike s t) (htu : SendsAlike t u) : SendsAlike s u := by
  obtain ⟨xs, hstore, hevaluator⟩ := hst
  obtain ⟨ys, hstore', hevaluator'⟩ := htu
  exact ⟨xs ++ ys, by rw [hstore', hstore, List.append_assoc], by rw [hevaluator', hevaluator, List.append_assoc]⟩

section Assembler

variable (s : State)

theorem insertPending_sendsAlike : SendsAlike s (insertPending s) := by
  unfold insertPending
  split
  · exact .refl s
  · exact ⟨[_], rfl, rfl⟩

theorem closeRound_sendsAlike (a : InAssembly) (complete : Bool) : SendsAlike s (closeRound s a complete) :=
  SendsAlike.trans ⟨[_], rfl, rfl⟩ (insertPending_sendsAlike _)

theorem closeIncomplete_sendsAlike : SendsAlike s (closeIncomplete s) := by
  unfold closeIncomplete
  split
  · exact .refl s
  · exact closeRound_sendsAlike s _ _

theorem acceptRound_sendsAlike (n : Round) (declared : ChannelMask) (gap : Nat) (spanStart : Bool) :
    SendsAlike s (acceptRound s n declared gap spanStart) := by
  unfold acceptRound
  dsimp only
  split
  · exact SendsAlike.trans (.of_same rfl rfl) (closeRound_sendsAlike _ _ _)
  · exact .of_same rfl rfl

theorem restartRound_sendsAlike (old n : Round) (declared : ChannelMask) :
    SendsAlike s (restartRound s old n declared) :=
  SendsAlike.trans ⟨[.restart], rfl, rfl⟩ (acceptRound_sendsAlike _ _ _ _ _)

theorem judgeRound_sendsAlike (n : Round) (declared : ChannelMask) : SendsAlike s (judgeRound s n declared) := by
  unfold judgeRound
  split
  · exact acceptRound_sendsAlike s _ _ _ _
  · split
    · unfold forwardRound
      split
      · exact acceptRound_sendsAlike s _ _ _ _
      · exact SendsAlike.trans (.of_same rfl rfl) (acceptRound_sendsAlike _ _ _ _ _)
    · split
      · exact .of_same rfl rfl
      · exact restartRound_sendsAlike s _ _ _
  · split
    · exact SendsAlike.trans (.of_same rfl rfl) (acceptRound_sendsAlike _ _ _ _ _)
    · exact restartRound_sendsAlike s _ _ _

theorem takeSample_sendsAlike (a : InAssembly) (ch : Fin 16) (value : Sample) :
    SendsAlike s (takeSample s a ch value) := by
  unfold takeSample
  dsimp only
  split
  · refine SendsAlike.trans ?_ (closeRound_sendsAlike _ _ _)
    split <;> exact .of_same rfl rfl
  · split <;> exact .of_same rfl rfl

theorem sampleTaken_sendsAlike (channel low : Byte) (value : Sample) :
    SendsAlike s (sampleTaken s channel low value) := by
  unfold sampleTaken
  split
  · exact .of_same rfl rfl
  · split
    · exact .of_same rfl rfl
    · split
      · exact takeSample_sendsAlike s _ _ _
      · exact .of_same rfl rfl

theorem silenceExpires_sendsAlike : SendsAlike s (silenceExpires s) := by
  unfold silenceExpires
  split
  · exact .refl s
  · rename_i e _
    split
    · unfold streamFallsSilent
      dsimp only
      split
      · exact SendsAlike.trans (t := reach s e) (.of_same rfl rfl)
          ((closeIncomplete_sendsAlike (reach s e)).trans ⟨[.lost], rfl, rfl⟩)
      · exact .of_same rfl rfl
      · exact .of_same rfl rfl
    · exact .refl s

theorem onLane_sendsAlike {f : State → State} (dt : Nat) (hf : ∀ u, SendsAlike u (f u)) :
    SendsAlike s (onLane s dt f) := by
  obtain ⟨-, h⟩ | ⟨-, h⟩ := onLane_cases s dt f <;> rw [h]
  · refine SendsAlike.trans ?_ (hf _)
    rw [elapse_spec]
    exact .of_same rfl rfl
  · exact .refl s

end Assembler

/-- R7: whatever the Assembler places on one of its paths, it places on the other. -/
theorem assembler_sendsAlike {c : Instr} {s t : State} (hc : blockOf c = .assembler) (h : exec c s = .next t) :
    SendsAlike s t := by
  cases c <;> cases hc
  all_goals obtain rfl := Host.Outcome.next.inj h
  case roundCell dt n declared =>
    exact onLane_sendsAlike s dt fun u => (closeIncomplete_sendsAlike u).trans (judgeRound_sendsAlike _ n declared)
  case sampleCell dt channel low value =>
    exact onLane_sendsAlike s dt fun u => sampleTaken_sendsAlike u channel low value
  case feReplyRelay dt body => exact onLane_sendsAlike s dt fun u => .of_same rfl rfl
  case silenceExpiry => exact silenceExpires_sendsAlike s
  case commitStart =>
    unfold takeCommitStart
    split
    · dsimp only
      split
      · exact ⟨[_], rfl, rfl⟩
      · exact .of_same rfl rfl
    · exact .refl s
  case nodeResetStart =>
    unfold takeNodeResetStart
    split
    · exact ⟨[.nodeReset], rfl, rfl⟩
    · exact .refl s

/-! ## The blocks between the Assembler and the Window Engine -/

variable {s t : State}

theorem assembler_balance {c : Instr} (hc : blockOf c = .assembler) (ht : exec c s = .next t) :
    balanceToCome t = balanceToCome s := by
  obtain ⟨xs, hstore, hevaluator⟩ := assembler_sendsAlike hc ht
  have hframe := exec_changesOnly ht
  rw [hc] at hframe
  have hrest : t.engine = s.engine ∧ t.paths.evaluatorToTable = s.paths.evaluatorToTable ∧
      t.paths.tableToEngine = s.paths.tableToEngine ∧ t.paths.storeToEngine = s.paths.storeToEngine := by
    rw [hframe]
    exact ⟨rfl, rfl, rfl, rfl⟩
  obtain ⟨hengine, hverdicts, hitems, hnotices⟩ := hrest
  simp only [balanceToCome, tableSide, storeSide, hengine, hverdicts, hitems, hnotices, hstore, hevaluator,
    resetsInPath_append]
  omega

/-- R33: of the store's notices only the flush of a node reset counts. -/
theorem count_overwritten (xs : List Record) : (overwrittenNotices xs).count .flushedNodeReset = 0 := by
  rw [List.count_eq_zero]
  simp [overwrittenNotices]

theorem appendRecord_storeSide (x : Record) : storeSide (appendRecord s x) = storeSide s := by
  unfold appendRecord
  split <;> simp [storeSide, List.count_append, count_overwritten]

/-- The store takes an item that is no node reset. -/
theorem storeTakes_storeSide {x : PathItem} {rest : List PathItem} (hitems : s.paths.asmToStore = x :: rest)
    (hx : (pathToken x).toList.count .nodeReset = 0) : storeSide (storeTakes s rest) = storeSide s := by
  simp only [storeSide, storeTakes, hitems, resetsInPath, count_tokens_cons, hx, Nat.zero_add]

/-- R33: the store takes a node reset and sends the flushed notice of that cause. -/
theorem flushNodeReset_storeSide {rest : List PathItem} (hitems : s.paths.asmToStore = .nodeReset :: rest) :
    storeSide (flushStore (storeTakes s rest) .flushedNodeReset) = storeSide s := by
  simp [storeSide, flushStore, storeTakes, hitems, resetsInPath, pathToken]
  omega

theorem store_storeSide {c : Instr} (hc : blockOf c = .store) (ht : exec c s = .next t) :
    storeSide t = storeSide s := by
  cases c <;> cases hc
  case historyLostNotice =>
    have ht' : execHistoryLostNotice s = .next t := ht
    unfold execHistoryLostNotice at ht'
    split at ht'
    · rename_i rest hitems
      split at ht'
      · cases ht'
        rw [← storeTakes_storeSide hitems rfl]
        simp [storeSide]
      · cases ht'
    · cases ht'
      rfl
  all_goals obtain rfl := Host.Outcome.next.inj ht
  case recordAppend =>
    unfold takeRecordAppend
    split
    · rename_i hitems
      exact (appendRecord_storeSide _).trans (storeTakes_storeSide hitems rfl)
    · rfl
  case historyRestartNotice =>
    unfold takeHistoryRestart
    split
    · rename_i hitems
      rw [← storeTakes_storeSide hitems rfl]
      simp [storeSide, flushStore]
    · rfl
  case historyEpochMark =>
    unfold takeHistoryMark
    split
    · exact storeTakes_storeSide ‹_› rfl
    · rfl
  case historyNodeResetNotice =>
    unfold takeHistoryNodeReset
    split
    · exact flushNodeReset_storeSide ‹_›
    · rfl

/-- R52: the Evaluator takes the item `x` and sends `y`, which carries the same token. -/
theorem evaluatorRelays_tableSide {x : PathItem} {rest : List PathItem} {y : VerdictItem}
    (hitems : s.paths.asmToEvaluator = x :: rest) (htoken : verdictToken y = pathToken x)
    (htaken : t.paths.asmToEvaluator = rest)
    (hsent : t.paths.evaluatorToTable = s.paths.evaluatorToTable ++ [y])
    (hsame : t.paths.tableToEngine = s.paths.tableToEngine) : tableSide t = tableSide s := by
  simp only [tableSide, resetsInPath, hitems, htaken, hsent, hsame, filterMap_sent, htoken, count_tokens_cons,
    List.count_append]
  omega

theorem evaluator_tableSide {c : Instr} (hc : blockOf c = .evaluator) (ht : exec c s = .next t) :
    tableSide t = tableSide s := by
  cases c <;> cases hc
  all_goals obtain rfl := Host.Outcome.next.inj ht
  case recordEvaluation =>
    unfold takeRecordEvaluation
    split
    · exact evaluatorRelays_tableSide ‹_› rfl rfl rfl rfl
    · rfl
  case evaluatorLostNotice =>
    unfold takeEvaluatorLost
    split
    · exact evaluatorRelays_tableSide ‹_› rfl rfl rfl rfl
    · rfl
  case evaluatorRestartNotice =>
    unfold takeEvaluatorRestart
    split
    · exact evaluatorRelays_tableSide ‹_› rfl rfl rfl rfl
    · rfl
  case evaluatorEpochMark =>
    unfold takeEvaluatorMark
    split
    · exact evaluatorRelays_tableSide ‹_› rfl rfl rfl rfl
    · rfl
  case evaluatorNodeResetNotice =>
    unfold takeEvaluatorNodeReset
    split
    · exact evaluatorRelays_tableSide ‹_› rfl rfl rfl rfl
    · rfl

/-- The Trigger Table takes the item `x` and sends `ys` to the engine, which carry the same token. -/
theorem tableRelays_tableSide {x : VerdictItem} {rest : List VerdictItem} {ys : List EngineItem}
    (hitems : s.paths.evaluatorToTable = x :: rest)
    (htoken : (ys.filterMap engineToken).count .nodeReset = (verdictToken x).toList.count .nodeReset)
    (hsame : t.paths.asmToEvaluator = s.paths.asmToEvaluator) (htaken : t.paths.evaluatorToTable = rest)
    (hsent : t.paths.tableToEngine = s.paths.tableToEngine ++ ys) : tableSide t = tableSide s := by
  simp only [tableSide, resetsInPath, hitems, hsame, htaken, hsent, htoken, count_tokens_cons, count_tokens_append]
  omega

theorem table_tableSide {c : Instr} (hc : blockOf c = .table) (ht : exec c s = .next t) :
    tableSide t = tableSide s := by
  cases c <;> cases hc
  all_goals obtain rfl := Host.Outcome.next.inj ht
  case verdict =>
    unfold takeVerdict
    split
    · refine tableRelays_tableSide (ys := (gather _ EntryResult.opens).map .request) ‹_› ?_ rfl rfl rfl
      rw [filterMap_engineToken_requests]
      rfl
    · rfl
  case triggerRestartNotice =>
    unfold takeTriggerRestart
    split
    · exact tableRelays_tableSide (ys := []) ‹_› rfl rfl rfl (List.append_nil _).symm
    · rfl
  case triggerLostNotice =>
    unfold takeTriggerLost
    split
    · exact tableRelays_tableSide (ys := []) ‹_› rfl rfl rfl (List.append_nil _).symm
    · rfl
  case triggerEpochMark =>
    unfold takeTriggerMark
    split
    · exact tableRelays_tableSide ‹_› rfl rfl rfl rfl
    · rfl
  case triggerNodeResetNotice =>
    unfold takeTriggerNodeReset
    split
    · exact tableRelays_tableSide ‹_› rfl rfl rfl rfl
    · rfl
  case armNotice => unfold takeArmNotice answerNotice; split <;> (try split) <;> rfl
  case disarmNotice => unfold takeDisarmNotice answerNotice; split <;> (try split) <;> rfl
  case fireNotice => unfold takeFireNotice answerNotice; split <;> (try split) <;> rfl
  case triggerSafeState => unfold takeTriggerSafeState; split <;> rfl
  case triggerSessionOpen => unfold takeTriggerSessionOpen; split <;> rfl
  case triggerClose => unfold takeTriggerClose; split <;> rfl

/-! ## The Window Engine -/

/-- A service pass changes neither the balance nor a path to the engine. -/
theorem resumePass_balance (s : State) : balanceToCome (resumePass s) = balanceToCome s := by
  obtain ⟨-, -, -, -, -, -, -, -, -, -, hengine, -, hpaths⟩ := resumePass_leaves s
  rw [balanceToCome, tableSide, storeSide, hengine, hpaths]
  rfl

/-- R99: the engine takes an item of the table, and its balance rises by one if that is a node reset. -/
theorem engineTakesTable_balance {u : State} {x : EngineItem} {rest : List EngineItem}
    (hitems : s.paths.tableToEngine = x :: rest)
    (hbalance : u.engine.balance = s.engine.balance + (engineToken x).toList.count .nodeReset)
    (hpaths : u.paths.asmToStore = s.paths.asmToStore ∧ u.paths.asmToEvaluator = s.paths.asmToEvaluator ∧
      u.paths.evaluatorToTable = s.paths.evaluatorToTable ∧ u.paths.storeToEngine = s.paths.storeToEngine)
    (htaken : u.paths.tableToEngine = rest) : balanceToCome u = balanceToCome s := by
  obtain ⟨hrecords, hmarks, hverdicts, hnotices⟩ := hpaths
  simp only [balanceToCome, tableSide, storeSide, hrecords, hmarks, hverdicts, hnotices, htaken, hitems, hbalance,
    count_tokens_cons]
  omega

/-- R99: the engine takes a notice of the store, and its balance falls by one if that is the flush of a node reset. -/
theorem engineTakesStore_balance {u : State} {x : StoreNotice} {rest : List StoreNotice}
    (hitems : s.paths.storeToEngine = x :: rest)
    (hbalance : u.engine.balance = s.engine.balance - (if x = .flushedNodeReset then 1 else 0))
    (hpaths : u.paths.asmToStore = s.paths.asmToStore ∧ u.paths.asmToEvaluator = s.paths.asmToEvaluator ∧
      u.paths.evaluatorToTable = s.paths.evaluatorToTable ∧ u.paths.tableToEngine = s.paths.tableToEngine)
    (htaken : u.paths.storeToEngine = rest) : balanceToCome u = balanceToCome s := by
  obtain ⟨hrecords, hmarks, hverdicts, hnotices⟩ := hpaths
  simp only [balanceToCome, tableSide, storeSide, hrecords, hmarks, hverdicts, hnotices, htaken, hitems, hbalance,
    List.count_cons]
  by_cases hx : x = .flushedNodeReset
  · subst hx
    simp
    omega
  · simp [hx]

/-- An open request leaves the balance. -/
theorem OpenOutcome.balance {q : OpenRequest} {u : State} (h : OpenOutcome s q u) :
    u.engine.balance = s.engine.balance := by
  cases h <;> rfl

/-- An open request sends nothing but a refusal, to the Egress Queue. -/
theorem OpenOutcome.paths {q : OpenRequest} {u : State} (h : OpenOutcome s q u) :
    u.paths = { s.paths with engineOffers := u.paths.engineOffers } := by
  cases h <;> rfl

theorem EngineTakes.balance {u : State} (h : EngineTakes s u) : balanceToCome u = balanceToCome s := by
  cases h
  case request q rest hitems hout =>
    have hpaths := hout.paths
    refine engineTakesTable_balance hitems ?_ ?_ ?_
    · rw [hout.balance]; exact (Int.add_zero _).symm
    · rw [hpaths]; exact ⟨rfl, rfl, rfl, rfl⟩
    · rw [hpaths]
  case mark e rest hitems => exact engineTakesTable_balance hitems (Int.add_zero _).symm ⟨rfl, rfl, rfl, rfl⟩ rfl
  case nodeReset rest hitems => exact engineTakesTable_balance hitems rfl ⟨rfl, rfl, rfl, rfl⟩ rfl
  case stored r rest hitems =>
    unfold takeStored
    split <;> exact engineTakesStore_balance hitems (Int.sub_zero _).symm ⟨rfl, rfl, rfl, rfl⟩ rfl
  case overwritten r rest hitems =>
    exact engineTakesStore_balance hitems (Int.sub_zero _).symm ⟨rfl, rfl, rfl, rfl⟩ rfl
  case lost n rest hitems =>
    unfold takeLost
    split <;> exact engineTakesStore_balance hitems (Int.sub_zero _).symm ⟨rfl, rfl, rfl, rfl⟩ rfl
  case flushedRestart rest hitems =>
    unfold takeFlushedRestart
    split <;> exact engineTakesStore_balance hitems (Int.sub_zero _).symm ⟨rfl, rfl, rfl, rfl⟩ rfl
  case flushedNodeReset rest hitems =>
    unfold takeFlushedNodeReset
    split <;> exact engineTakesStore_balance hitems rfl ⟨rfl, rfl, rfl, rfl⟩ rfl
  case room | tailTransmitted | safeState | sessionOpen => rfl

theorem groupEmitted_balance (s : State) (g : List WinSample) : balanceToCome (groupEmitted s g) = balanceToCome s := by
  unfold groupEmitted
  split <;> rfl

theorem EngineMove.balance (h : EngineMove s t) : balanceToCome t = balanceToCome s := by
  cases h
  case stays | declined => rfl
  case event u _ htakes => exact (resumePass_balance _).trans htakes.balance
  case headAdmitted | tailAdmitted => exact resumePass_balance _
  case groupAdmitted => exact (resumePass_balance _).trans (groupEmitted_balance _ _)

/-! ## Every step -/

theorem exec_balanceLaw {c : Instr} (h : BalanceLaw s) (ht : exec c s = .next t) : BalanceLaw t := by
  rw [balanceLaw_iff] at h ⊢
  have hframe := exec_changesOnly ht
  cases hc : blockOf c <;> rw [hc] at hframe
  case power =>
    cases c <;> cases hc
    case powerOnReset => cases ht; rfl
  case assembler => exact (assembler_balance hc ht).trans h
  case store =>
    have hside := store_storeSide hc ht
    rw [← h, balanceToCome, balanceToCome, hside, hframe]
    rfl
  case evaluator =>
    have hside := evaluator_tableSide hc ht
    rw [← h, balanceToCome, balanceToCome, hside, hframe]
    rfl
  case table =>
    have hside := table_tableSide hc ht
    rw [← h, balanceToCome, balanceToCome, hside, hframe]
    rfl
  case engine => exact (engine_move hc ht).balance.trans h
  case clock | lanes | lines | queue | agent | clearing => rw [hframe]; exact h

/-- R155: one node reset at most is on its way to the engine. -/
theorem EpochLaw.resetsFromTable_le (h : EpochLaw s) : resetsFromTable s ≤ 1 := by
  obtain ⟨-, hengine, -⟩ := h
  have hdue : (tokenDue s.agent s.agent.engineAcked).length ≤ 1 := by
    unfold tokenDue
    split_ifs <;> simp
  calc resetsFromTable s ≤ (beforeEngine s).length := List.count_le_length
    _ ≤ (tokenDue s.agent s.agent.engineAcked).length := by rw [← hengine, List.length_append]; omega
    _ ≤ 1 := hdue

/-- Settles O35: each block passes on a node reset that it takes, and the engine counts it once from each side. -/
theorem balanceLawKept : Obligations.BalanceLawKept := by
  refine ⟨fun s t h ht => ?_, fun s h hepoch => ?_⟩
  · unfold step at ht
    split at ht
    · cases ht; rw [elapse_spec]; exact h
    · rename_i c rest _
      have hrest : BalanceLaw { s with pending := rest } := h
      exact exec_balanceLaw hrest ht
  · have hone := hepoch.resetsFromTable_le
    unfold BalanceLaw at h
    omega

end Sys2Proof.Machine
end

section
/-! R60, R112, R119, R125: the held law, block by block: the Trigger Table, the Output Line Unit, the Window Engine. -/

namespace Sys2Proof.Machine

open Stated

variable {s t : State}

/-! ## The Trigger Table (R60) -/

/-- A held table has no entry that is ARMED, in HOLDOFF or marked to fire. -/
def TableQuiet (x : TriggerTable) : Prop := x.held = true → ∀ i : Fin 8, Unarmed (x.live.get i)

theorem disarmEntry_unarmed (l : EntryLive) : Unarmed (disarmEntry l) := ⟨nofun, nofun, rfl⟩

/-- R62: an entry that is DISARMED or FIRED has no holdoff to end. -/
theorem Unarmed.afterHoldoff {l : EntryLive} (h : Unarmed l) (e : TriggerEntry) (r : Round) :
    afterHoldoff e l.state r = l.state := by
  obtain ⟨-, hholdoff, -⟩ := h
  unfold Machine.afterHoldoff
  split
  · rename_i base hbase
    exact absurd hbase (hholdoff base)
  all_goals exact Eq.symm ‹_›

/-- R63, R67: an entry that is not ARMED and not marked does nothing in a verdict. -/
theorem Unarmed.handleEntry {l : EntryLive} (h : Unarmed l) (i : Fin 8) (e : TriggerEntry) (w : Vector EntryLive 8)
    (p : Option Round) (v : Verdict) :
    handleEntry i e l w p v = { live := l, opens := [], lines := [], events := [], chain := 0 } := by
  unfold Machine.handleEntry
  have hstate := h.afterHoldoff e v.round
  have hsame : { l with state := Machine.afterHoldoff e l.state v.round } = l := by rw [hstate]
  obtain ⟨harmed, -, hmark⟩ := h
  rw [if_neg (by simp [hmark, hstate, harmed]), hsame]

/-- R73: with every entry unarmed no fire names an entry, and all stay as they are. -/
theorem handleVerdict_quiet (v : Verdict) (h : TableQuiet s.table) : TableQuiet (handleVerdict s v).table := by
  intro hheld i
  have hquiet := h hheld
  have hresult (j : Fin 8) : (entryResults s.table v).get j =
      { live := s.table.live.get j, opens := [], lines := [], events := [], chain := 0 } := by
    rw [entryResults, get_ofFn]
    exact (hquiet j).handleEntry _ _ _ _ _
  have hchain : chained (entryResults s.table v) i = false := by
    simp [chained, hresult, hasEntry]
  have hsame : (handleVerdict s v).table.live.get i = s.table.live.get i := by
    unfold handleVerdict
    simp [hchain, hresult]
  exact hsame ▸ hquiet i

/-- Each entry becomes `f` of what it was. -/
theorem TableQuiet.of_entries {y : TriggerTable} {f : Fin 8 → EntryLive} (hlive : y.live = Vector.ofFn f)
    (hf : y.held = true → ∀ i, Unarmed (f i)) : TableQuiet y := by
  intro hheld i
  rw [hlive, get_ofFn]
  exact hf hheld i

/-- R74: a held table refuses ARM, DISARM and FIRE. -/
theorem answerNotice_quiet {act : State → State} (h : TableQuiet s.table) (hact : (act s).table.held = s.table.held) :
    TableQuiet (answerNotice s act).table := by
  intro hheld
  unfold answerNotice at hheld ⊢
  split at hheld
  · rw [if_pos ‹_›]
    exact h hheld
  · rename_i hfree
    exact absurd (hact.symm.trans hheld) hfree

theorem entryAtRestart_unarmed {l : EntryLive} (h : Unarmed l) : Unarmed (entryAtRestart l) := by
  obtain ⟨harmed, hholdoff, hmark⟩ := h
  unfold entryAtRestart
  cases hl : l.state
  case armed => exact absurd hl harmed
  case holdoff base => exact absurd hl (hholdoff base)
  case disarmed | fired => exact ⟨nofun, nofun, hmark⟩

/-- R83: an entry that a held table adopts is DISARMED. -/
theorem tableAdopts_quiet (e : Epoch) (h : TableQuiet s.table) : TableQuiet (tableAdopts s e).table := by
  refine .of_entries rfl fun hheld i => ?_
  split
  · exact h hheld i
  · have hheld' : s.table.held = true := hheld
    simp [adoptedEntry, hheld', Unarmed]

theorem table_quiet {c : Instr} (hc : blockOf c = .table) (h : TableQuiet s.table) (ht : exec c s = .next t) :
    TableQuiet t.table := by
  cases c <;> cases hc
  all_goals obtain rfl := Host.Outcome.next.inj ht
  case verdict =>
    unfold takeVerdict
    split
    · exact handleVerdict_quiet (s := tableTakes s _) _ h
    · exact h
  case armNotice =>
    unfold takeArmNotice
    split
    · exact answerNotice_quiet (s := tableTakesNotice s _) h rfl
    · exact h
  case disarmNotice =>
    unfold takeDisarmNotice
    split
    · exact answerNotice_quiet (s := tableTakesNotice s _) h rfl
    · exact h
  case fireNotice =>
    unfold takeFireNotice
    split
    · exact answerNotice_quiet (s := tableTakesNotice s _) h rfl
    · exact h
  case triggerSafeState =>
    unfold takeTriggerSafeState
    split
    · exact .of_entries rfl fun _ _ => disarmEntry_unarmed _
    · exact h
  case triggerSessionOpen =>
    unfold takeTriggerSessionOpen
    split
    · exact nofun
    · exact h
  case triggerClose =>
    unfold takeTriggerClose
    split
    · exact .of_entries rfl fun _ _ => disarmEntry_unarmed _
    · exact h
  case triggerRestartNotice =>
    unfold takeTriggerRestart
    split
    · exact .of_entries rfl fun hheld i => entryAtRestart_unarmed (h hheld i)
    · exact h
  case triggerLostNotice =>
    unfold takeTriggerLost
    split <;> exact h
  case triggerEpochMark =>
    unfold takeTriggerMark
    split
    · exact tableAdopts_quiet (s := tableTakes s _) _ h
    · exact h
  case triggerNodeResetNotice =>
    unfold takeTriggerNodeReset
    split
    · exact .of_entries rfl fun _ _ => ⟨nofun, nofun, rfl⟩
    · exact h

/-! ## The Output Line Unit (R119, R125) -/

/-- A held unit has every line INACTIVE, and a disabled line is INACTIVE in any case. -/
def LinesQuiet (u : LineUnit) : Prop :=
  (u.held = true → ∀ n : Fin 8, u.lines.get n = .inactive) ∧
  ∀ n : Fin 8, (u.entries.get n).enable = false → u.lines.get n = .inactive

/-- A line that is held or disabled. -/
def Idle (u : LineUnit) (n : Fin 8) : Prop := u.held = true ∨ (u.entries.get n).enable = false

theorem linesQuiet_iff (u : LineUnit) : LinesQuiet u ↔ ∀ n, Idle u n → u.lines.get n = .inactive := by
  constructor
  · rintro ⟨hheld, hdisabled⟩ n (h | h)
    · exact hheld h n
    · exact hdisabled n h
  · intro h
    exact ⟨fun hheld n => h n (.inl hheld), fun n hdisabled => h n (.inr hdisabled)⟩

/-- Each line becomes `f` of what it was. -/
theorem LinesQuiet.of_lines {u : LineUnit} {f : Fin 8 → LineState} (hlines : u.lines = Vector.ofFn f)
    (hf : ∀ n, Idle u n → f n = .inactive) : LinesQuiet u := by
  refine (linesQuiet_iff u).2 fun n hn => ?_
  rw [hlines, get_ofFn]
  exact hf n hn

theorem stepLine_idle {e : LineEntry} {held : Bool} (h : held = true ∨ e.enable = false) (r : Round)
    (acts : List LineOp) : stepLine e held r acts .inactive = .inactive := by
  obtain h | h := h <;> simp [stepLine, expirePulse, h]

/-- R124: a LINE notice is applied only to an enabled line of a unit that is not held. -/
theorem lineOutcome_applied {u : LineUnit} {n : Fin 8} (h : lineOutcome u n = .applied) : ¬ Idle u n := by
  unfold lineOutcome at h
  split at h
  · cases h
  · split at h
    · rintro (hheld | hdisabled) <;> simp_all
    · cases h

theorem handleLineNotice_quiet (n : Fin 8) (c : LineCommand) (h : LinesQuiet s.lines) :
    LinesQuiet (handleLineNotice s n c).lines := by
  unfold handleLineNotice
  dsimp only
  split
  · rename_i happlied
    refine .of_lines rfl fun k hk => ?_
    dsimp only
    split
    · rename_i hkn
      exact absurd (hkn ▸ hk) (lineOutcome_applied happlied)
    · exact (linesQuiet_iff _).1 h k hk
  · exact h

/-- R130: a line keeps its state only under an unchanged entry. -/
theorem linesAdopt_quiet (e : Epoch) (h : LinesQuiet s.lines) : LinesQuiet (linesAdopt s e).lines := by
  refine .of_lines rfl fun n hn => ?_
  split
  · rename_i hsame
    refine (linesQuiet_iff _).1 h n (hn.imp id fun hdisabled => ?_)
    rw [hsame]
    exact hdisabled
  · rfl

theorem lines_quiet {c : Instr} (hc : blockOf c = .lines) (h : LinesQuiet s.lines) (ht : exec c s = .next t) :
    LinesQuiet t.lines := by
  have hidle := (linesQuiet_iff _).1 h
  cases c <;> cases hc
  all_goals obtain rfl := Host.Outcome.next.inj ht
  case lineStep =>
    unfold takeLineStep
    split
    · refine .of_lines rfl fun n hn => ?_
      have hn' : Idle s.lines n := hn
      simp only [linesTake, hidle n hn']
      exact stepLine_idle hn' _ _
    · exact h
  case lineNotice =>
    unfold takeLineNotice
    split
    · exact handleLineNotice_quiet (s := linesTakeNotice s _) _ _ h
    · exact h
  case lineSafeState =>
    unfold takeLineSafeState
    split
    · exact .of_lines rfl fun _ _ => rfl
    · exact h
  case lineSessionOpen =>
    unfold takeLineSessionOpen
    split
    · exact ⟨nofun, h.2⟩
    · exact h
  case lineClose =>
    unfold takeLineClose
    split
    · exact .of_lines rfl fun _ _ => rfl
    · exact h
  case lineLostNotice =>
    unfold takeLineLost
    split
    · exact .of_lines rfl fun n hn => congrArg endPulse (hidle n hn)
    · exact h
  case lineRestartNotice =>
    unfold takeLineRestart
    split
    · exact .of_lines rfl fun n hn => congrArg endPulse (hidle n hn)
    · exact h
  case lineEpochMark =>
    unfold takeLineMark
    split
    · exact linesAdopt_quiet (s := linesTake s _) _ h
    · exact h
  case lineNodeResetNotice =>
    unfold takeLineNodeReset
    split
    · exact .of_lines rfl fun _ _ => rfl
    · exact h

/-! ## The Window Engine (R112) -/

/-- A held engine has no window OPEN or DRAINING. -/
def EngineQuiet (s : State) : Prop := s.engine.held = true → ∀ w ∈ s.engine.windows, inProgress w = false

/-- A change of a window that does not bring it into progress. -/
def KeepsSettled (f : Window → Window) : Prop := ∀ w, inProgress w = false → inProgress (f w) = false

theorem EngineQuiet.of_map {f : Window → Window} (h : EngineQuiet s) (hf : KeepsSettled f)
    (hheld : t.engine.held = s.engine.held) (hwindows : t.engine.windows = s.engine.windows.map f) :
    EngineQuiet t := by
  intro hh w hw
  rw [hwindows] at hw
  obtain ⟨x, hx, rfl⟩ := List.mem_map.1 hw
  exact hf x (h (hheld ▸ hh) x hx)

theorem EngineQuiet.of_filter {p : Window → Bool} (h : EngineQuiet s) (hheld : t.engine.held = s.engine.held)
    (hwindows : t.engine.windows = s.engine.windows.filter p) : EngineQuiet t := by
  intro hh w hw
  rw [hwindows] at hw
  exact h (hheld ▸ hh) w (List.mem_filter.1 hw).1

/-- A window's state decides whether it is in progress. -/
theorem inProgress_eq_false {w : Window} : inProgress w = false ↔ w.state ≠ .opened ∧ w.state ≠ .draining := by
  simp [inProgress]

theorem KeepsSettled.of_same {f : Window → Window} (h : ∀ w, (f w).state = w.state) : KeepsSettled f := by
  intro w hw
  rwa [inProgress, h w]

theorem updateWindow_quiet {f : Window → Window} (h : EngineQuiet s) (hf : KeepsSettled f) (id : WindowId) :
    EngineQuiet (updateWindow s id f) := by
  refine h.of_map (f := fun w => if w.id = id then f w else w) (fun w hw => ?_) rfl rfl
  dsimp only
  split
  · exact hf w hw
  · exact hw

theorem closeIfDone_settled : KeepsSettled closeIfDone := by
  intro w hw
  obtain heq | ⟨-, -, heq⟩ := closeIfDone_cases w <;> rw [heq]
  · exact hw
  · rfl

theorem emitted_settled (k : Nat) : KeepsSettled (emitted k) := fun _ hw => closeIfDone_settled _ hw

/-- Only a window in progress is settled anew. -/
theorem settleSkip_of_settled {h : Store} {w : Window} (hw : inProgress w = false) : settleSkip h w = w := by
  simp [settleSkip, isBehind, isOnGap, hw]

theorem settleSkip_settled (h : Store) : KeepsSettled (settleSkip h) := by
  intro w hw
  rwa [settleSkip_of_settled hw]

/-- A change made to OPEN windows only. -/
theorem KeepsSettled.of_opened {p : Window → Prop} [DecidablePred p] {f : Window → Window}
    (hp : ∀ w, p w → w.state = .opened) : KeepsSettled fun w => if p w then f w else w := by
  intro w hw
  dsimp only
  split
  · rename_i hpw
    exact absurd (hp w hpw) (inProgress_eq_false.1 hw).1
  · exact hw

theorem engineQuiet_passMoves : PassMoves EngineQuiet where
  tail _ _ _ h _ _ _ := h
  remove _ _ _ h _ _ _ := h.of_filter rfl rfl
  settle _ _ h _ _ _ _ := h.of_map (settleSkip_settled _) rfl rfl
  done _ _ h _ _ := h
  head _ _ _ h _ _ _ _ _ := h
  empty _ _ _ h _ _ _ _ _ := updateWindow_quiet h (emitted_settled 0) _
  group _ _ _ _ _ h _ _ _ _ _ := h

theorem resumePass_quiet (h : EngineQuiet s) : EngineQuiet (resumePass s) := runPass_keeps engineQuiet_passMoves _ _ h

theorem abortWindow_settled : KeepsSettled abortWindow := by
  intro w hw
  rwa [abortWindow, hw]

theorem truncateWindow_settled : KeepsSettled truncateWindow := by
  intro w hw
  unfold truncateWindow
  rwa [if_neg (by simp [hw])]

theorem abortWindows_quiet (h : EngineQuiet s) : EngineQuiet (abortWindows s) := by
  have hdiscarded : EngineQuiet (discardWindows s fun w => inProgress w && !w.headSent) := h.of_filter rfl rfl
  exact hdiscarded.of_map abortWindow_settled rfl rfl

/-- R112: after a safe state no window is in progress. -/
theorem abortWindows_none_inProgress (w : Window) (hw : w ∈ (abortWindows s).engine.windows) :
    inProgress w = false := by
  obtain ⟨x, hx, rfl⟩ := List.mem_map.1 hw
  have hkept := (List.mem_filter.1 hx).2
  unfold abortWindow
  split
  · rfl
  · cases hlive : inProgress x <;> simp_all

theorem flushWindows_quiet (h : EngineQuiet s) : EngineQuiet (flushWindows s) :=
  h.of_map truncateWindow_settled rfl rfl

theorem OpenOutcome.quiet {q : OpenRequest} {u : State} (hout : OpenOutcome s q u) (h : EngineQuiet s) :
    EngineQuiet u := by
  cases hout
  case held | full | ignored => exact h
  case extended w _ _ _ =>
    refine updateWindow_quiet (s := { s with counters := _ }) h ?_ w.id
    exact .of_same fun _ => rfl
  case created hfree _ => exact fun hheld => absurd (hfree.symm.trans hheld) nofun

theorem EngineTakes.quiet {u : State} (htakes : EngineTakes s u) (h : EngineQuiet s) : EngineQuiet u := by
  cases htakes
  case request q rest _ hout => exact hout.quiet h
  case mark | overwritten | room => exact h
  case nodeReset => exact abortWindows_quiet (s := { s with paths := _ }) h
  case stored =>
    unfold takeStored
    split
    · exact h
    · exact h.of_map (.of_opened fun _ hw => hw.1) rfl rfl
  case lost =>
    unfold takeLost
    split
    · exact h
    · exact h.of_map (.of_opened fun _ hw => hw) rfl rfl
  case flushedRestart =>
    unfold takeFlushedRestart
    split
    · exact h
    · exact flushWindows_quiet h
  case flushedNodeReset =>
    unfold takeFlushedNodeReset
    split
    · exact h
    · exact flushWindows_quiet h
  case tailTransmitted => exact h.of_filter rfl rfl
  case safeState => exact fun _ => abortWindows_none_inProgress
  case sessionOpen => exact nofun

theorem EngineMove.quiet (hmove : EngineMove s t) (h : EngineQuiet s) : EngineQuiet t := by
  cases hmove
  case stays | declined => exact h
  case event u _ htakes => exact resumePass_quiet (htakes.quiet h)
  case headAdmitted x rest _ =>
    refine resumePass_quiet ?_
    refine updateWindow_quiet (s := admitWindow (queueTakesEngine s rest) _) h ?_ x.id
    exact .of_same fun _ => rfl
  case groupAdmitted g rest _ =>
    refine resumePass_quiet ?_
    unfold groupEmitted
    split
    · exact h
    · exact updateWindow_quiet (s := admitWindow (queueTakesEngine s rest) _) h (emitted_settled _) _
  case tailAdmitted x rest _ =>
    refine resumePass_quiet ?_
    exact updateWindow_quiet (s := admitWindow (queueTakesEngine s rest) _) h (fun _ _ => rfl) x.id

/-! ## Every step -/

theorem heldLaw_iff (s : State) : HeldLaw s ↔ TableQuiet s.table ∧ LinesQuiet s.lines ∧ EngineQuiet s := by
  constructor
  · rintro ⟨htable, hlines, hdisabled, hengine⟩
    exact ⟨htable, ⟨hlines, hdisabled⟩, hengine⟩
  · rintro ⟨htable, ⟨hlines, hdisabled⟩, hengine⟩
    exact ⟨htable, hlines, hdisabled, hengine⟩

theorem reset_heldLaw : HeldLaw State.reset := by
  have hlines : ∀ n : Fin 8, State.reset.lines.lines.get n = .inactive := by decide
  exact ⟨nofun, nofun, fun n _ => hlines n, nofun⟩

theorem exec_heldLaw {c : Instr} (h : HeldLaw s) (ht : exec c s = .next t) : HeldLaw t := by
  have hframe := exec_changesOnly ht
  obtain ⟨htable, hlines, hengine⟩ := (heldLaw_iff s).1 h
  cases hc : blockOf c <;> rw [hc] at hframe
  case power =>
    cases c <;> cases hc
    case powerOnReset => cases ht; exact reset_heldLaw
  case table =>
    have htable' := table_quiet hc htable ht
    rw [hframe]
    exact (heldLaw_iff _).2 ⟨htable', hlines, hengine⟩
  case lines =>
    have hlines' := lines_quiet hc hlines ht
    rw [hframe]
    exact (heldLaw_iff _).2 ⟨htable, hlines', hengine⟩
  case engine =>
    have hengine' := (engine_move hc ht).quiet hengine
    have hothers : t.table = s.table ∧ t.lines = s.lines := by rw [hframe]; exact ⟨rfl, rfl⟩
    exact (heldLaw_iff t).2 ⟨hothers.1 ▸ htable, hothers.2 ▸ hlines, hengine'⟩
  case clock | lanes | assembler | store | evaluator | queue | agent | clearing => rw [hframe]; exact h

/-- Settles O27: while a block is held its own commands keep it quiet, and no other command touches it. -/
theorem heldLawKept : Obligations.HeldLawKept := by
  intro s t h ht
  unfold step at ht
  split at ht
  · cases ht; rw [elapse_spec]; exact h
  · rename_i c rest _
    have hrest : HeldLaw { s with pending := rest } := h
    exact exec_heldLaw hrest ht

end Sys2Proof.Machine
end

section
/-! R24, R31: the stream law. Every command completes under it; the History Store keeps its ring in order by what comes
on its path, and the Round Assembler sends on that path only what may follow. -/

namespace Sys2Proof.Machine

variable {s t : State}

/-! ## The path to the store -/

/-- What is on its way to the store keeps it in order. -/
def PathOk (s : State) : Prop := PathInOrder (newestRound s.store) s.paths.asmToStore

theorem pathInOrder_append (n : Option Round) (xs ys : List PathItem) :
    PathInOrder n (xs ++ ys) ↔ PathInOrder n xs ∧ PathInOrder (xs.foldl newestAfter n) ys := by
  induction xs generalizing n with
  | nil => simp [PathInOrder]
  | cons x xs ih => simp [PathInOrder, ih, and_assoc]

/-- The Assembler sends one more item to an unchanged store. -/
theorem sent_newestToCome {x : PathItem} (hstore : t.store = s.store)
    (hpath : t.paths.asmToStore = s.paths.asmToStore ++ [x]) :
    newestToCome t = newestAfter (newestToCome s) x := by
  rw [newestToCome, newestToCome, hstore, hpath, List.foldl_append]
  rfl

theorem PathOk.sent {x : PathItem} (h : PathOk s) (hstore : t.store = s.store)
    (hpath : t.paths.asmToStore = s.paths.asmToStore ++ [x]) (hx : ItemInOrder (newestToCome s) x) : PathOk t := by
  rw [PathOk, hstore, hpath, pathInOrder_append]
  exact ⟨h, hx, trivial⟩

/-- R20: a mark changes neither the newest round to come nor the order. -/
theorem PathOk.insertMark (h : PathOk s) (e : Epoch) : PathOk (insertMark s e) :=
  h.sent (t := Machine.insertMark s e) (x := .mark e) rfl rfl trivial

theorem insertMark_newestToCome (e : Epoch) : newestToCome (insertMark s e) = newestToCome s :=
  sent_newestToCome (t := insertMark s e) (x := .mark e) rfl rfl

theorem insertMark_backward (e : Epoch) : (insertMark s e).asm.backward = s.asm.backward := rfl

/-! ## The Round Assembler -/

/-- The part of the stream law that the Assembler keeps. -/
def AssemblerLaw (s : State) : Prop := PathOk s ∧ AssemblyInOrder s ∧ SilenceTimed s ∧ s.asm.backward ≤ 2

/-- R10, R13: a record of round `n` may come next: it starts a span, or follows the newest round to come. -/
def MayFollow (s : State) (spanStart : Bool) (n : Round) : Prop :=
  spanStart = true ∨ ∃ m, newestToCome s = some m ∧ isAfter n m = true

/-- The Assembler has closed the round `r`, the last of its stream. -/
structure ClosedAt (s t : State) (r : Round) : Prop where
  path     : PathOk t
  newest   : newestToCome t = some r
  assembly : t.asm.assembly = none
  stream   : t.asm.stream = s.asm.stream
  silence  : t.asm.silenceExpiry = s.asm.silenceExpiry
  backward : t.asm.backward = s.asm.backward

/-- R20: a mark changes neither the newest round to come nor the stream. -/
theorem ClosedAt.insertPending {r : Round} (h : ClosedAt s t r) : ClosedAt s (insertPending t) r := by
  obtain ⟨hpath, hnewest, hassembly, hstream, hsilence, hbackward⟩ := h
  unfold Machine.insertPending
  split
  · exact ⟨hpath, hnewest, hassembly, hstream, hsilence, hbackward⟩
  · exact ⟨hpath.insertMark _, (insertMark_newestToCome _).trans hnewest, hassembly, hstream, hsilence,
      (insertMark_backward _).trans hbackward⟩

/-- R6, R7: the record of a round that may follow is delivered. -/
theorem closeRound_closedAt (a : InAssembly) (complete : Bool) (hpath : PathOk s)
    (hfollows : MayFollow s a.spanStart a.round) : ClosedAt s (closeRound s a complete) a.round := by
  have hrecord : ClosedAt s { toBothPaths s (.record (recordOf a complete)) with
      asm := { s.asm with assembly := none } } a.round :=
    ⟨hpath.sent (x := .record (recordOf a complete)) rfl rfl hfollows,
      sent_newestToCome (s := s) (x := .record (recordOf a complete)) rfl rfl, rfl, rfl, rfl, rfl⟩
  exact ClosedAt.insertPending ⟨hrecord.path, hrecord.newest, rfl, rfl, rfl, rfl⟩

/-- A RUNNING stream whose round has closed. -/
theorem ClosedAt.assemblerLaw {r : Round} (h : ClosedAt s t r) (hstream : s.asm.stream = .running r)
    (hsilence : s.asm.silenceExpiry ≠ none) (hbackward : s.asm.backward ≤ 2) : AssemblerLaw t := by
  obtain ⟨hpath, hnewest, hassembly, hstream', hsilence', hbackward'⟩ := h
  have hrunning := hstream'.trans hstream
  refine ⟨hpath, ?_, ?_, hbackward'.le.trans hbackward⟩
  · rw [AssemblyInOrder, hrunning, hassembly]
    exact hnewest
  · rw [SilenceTimed, hrunning]
    exact hsilence'.symm ▸ hsilence

/-- A round in assembly belongs to a RUNNING stream, whose last round it is. -/
theorem AssemblerLaw.assembling (h : AssemblerLaw s) {a : InAssembly} (ha : s.asm.assembly = some a) :
    s.asm.stream = .running a.round ∧ MayFollow s a.spanStart a.round ∧ s.asm.silenceExpiry ≠ none := by
  obtain ⟨-, hassembly, hsilence, -⟩ := h
  rw [AssemblyInOrder, ha] at hassembly
  rw [SilenceTimed] at hsilence
  cases hstream : s.asm.stream <;> rw [hstream] at hassembly hsilence
  case down | lost => exact hassembly.elim
  case running r =>
    obtain ⟨rfl, hfollows⟩ := hassembly
    exact ⟨rfl, hfollows, hsilence⟩

/-- The round in assembly closes. -/
theorem AssemblerLaw.closeRound (h : AssemblerLaw s) {a : InAssembly} (ha : s.asm.assembly = some a)
    (complete : Bool) : AssemblerLaw (closeRound s a complete) := by
  obtain ⟨hstream, hfollows, hsilence⟩ := h.assembling ha
  exact (closeRound_closedAt a complete h.1 hfollows).assemblerLaw hstream hsilence h.2.2.2

theorem AssemblerLaw.closeIncomplete (h : AssemblerLaw s) :
    AssemblerLaw (closeIncomplete s) ∧ (closeIncomplete s).asm.assembly = none ∧
      (closeIncomplete s).asm.stream = s.asm.stream := by
  unfold Machine.closeIncomplete
  split
  · exact ⟨h, ‹_›, rfl⟩
  · rename_i a ha
    obtain ⟨-, hfollows, -⟩ := h.assembling ha
    have hclosed := closeRound_closedAt a false h.1 hfollows
    exact ⟨h.closeRound ha false, hclosed.assembly, hclosed.stream⟩

/-- R8: an accepted round is the last of a RUNNING stream, with the timer started. -/
theorem acceptRound_assemblerLaw {n : Round} {spanStart : Bool} (declared : ChannelMask) (gap : Nat)
    (hpath : PathOk s) (hfollows : MayFollow s spanStart n) :
    AssemblerLaw (acceptRound s n declared gap spanStart) := by
  have hopened : AssemblerLaw { s with asm := { s.asm with
      stream := .running n, backward := 0, silenceExpiry := some (expiryIn s s.asm.silenceTimeout)
      assembly := some (openedRound s n declared gap spanStart) } } :=
    ⟨hpath, ⟨rfl, hfollows⟩, nofun, Nat.zero_le _⟩
  unfold acceptRound
  dsimp only
  split
  · exact hopened.closeRound rfl true
  · exact hopened

/-- R12: a restart empties the store, and its round starts a span. -/
theorem restartRound_assemblerLaw (old n : Round) (declared : ChannelMask) (hpath : PathOk s) :
    AssemblerLaw (restartRound s old n declared) := by
  have hrestart : PathOk (toBothPaths s .restart) := hpath.sent rfl rfl trivial
  exact acceptRound_assemblerLaw declared 0 hrestart (.inl rfl)

/-- R9 to R13: what is accepted with no round in assembly starts a span or comes after the last round. -/
theorem AssemblerLaw.judgeRound (h : AssemblerLaw s) (hnone : s.asm.assembly = none) (n : Round)
    (declared : ChannelMask) : AssemblerLaw (judgeRound s n declared) := by
  obtain ⟨hpath, hassembly, hsilence, hbackward⟩ := id h
  rw [AssemblyInOrder, hnone] at hassembly
  unfold Machine.judgeRound
  split
  · exact acceptRound_assemblerLaw declared 0 hpath (.inl rfl)
  · rename_i last hstream
    rw [hstream] at hassembly
    split
    · rename_i hafter
      have hfollows : MayFollow s false n := .inr ⟨last, hassembly, hafter⟩
      unfold forwardRound
      split
      · exact acceptRound_assemblerLaw declared 0 hpath hfollows
      · exact acceptRound_assemblerLaw declared _ hpath hfollows
    · split
      · refine ⟨hpath, h.2.1, hsilence, ?_⟩
        show s.asm.backward + 1 ≤ 2
        omega
      · exact restartRound_assemblerLaw last n declared hpath
  · rename_i last hstream
    rw [hstream] at hassembly
    split
    · rename_i hafter
      exact acceptRound_assemblerLaw declared _ hpath (.inr ⟨last, hassembly, hafter⟩)
    · exact restartRound_assemblerLaw last n declared hpath

/-- R15: the round in assembly with one more sample received, kept unless its channel is OFF. -/
def withSample (s : State) (a : InAssembly) (ch : Fin 16) (value : Sample) : InAssembly :=
  { a with
    received := a.received ||| BitVec.ofNat 16 (2 ^ ch.val)
    kept := match s.asm.modes.get ch with
      | .off => a.kept
      | .pass => a.kept.set ch.val (some value) ch.isLt
      | .gate => a.kept.set ch.val (some value) ch.isLt }

/-- R15: the sample received, with the LIVE offer of a PASS channel. -/
def sampleOffered (s : State) (a : InAssembly) (ch : Fin 16) (value : Sample) : State :=
  let t := { s with asm := { s.asm with assembly := some (withSample s a ch value) } }
  match s.asm.modes.get ch with
  | .pass => asmOffer t (.live { channel := ch, round := a.round, value := value })
  | .off => t
  | .gate => t

theorem takeSample_eq (a : InAssembly) (ch : Fin 16) (value : Sample) :
    takeSample s a ch value =
      if a.declared &&& ~~~(withSample s a ch value).received = 0 then
        closeRound (sampleOffered s a ch value) (withSample s a ch value) true
      else sampleOffered s a ch value := rfl

theorem sampleOffered_assembly (a : InAssembly) (ch : Fin 16) (value : Sample) :
    (sampleOffered s a ch value).asm.assembly = some (withSample s a ch value) := by
  unfold sampleOffered
  cases s.asm.modes.get ch <;> rfl

/-- R15: a sample changes what is received and kept of the round in assembly. -/
theorem AssemblerLaw.takeSample (h : AssemblerLaw s) {a : InAssembly} (ha : s.asm.assembly = some a) (ch : Fin 16)
    (value : Sample) : AssemblerLaw (takeSample s a ch value) := by
  obtain ⟨hstream, hfollows, hsilence⟩ := h.assembling ha
  have hreceived : AssemblerLaw { s with asm := { s.asm with assembly := some (withSample s a ch value) } } := by
    refine ⟨h.1, ?_, h.2.2.1, h.2.2.2⟩
    simp only [AssemblyInOrder, hstream]
    exact ⟨rfl, hfollows⟩
  have hoffered : AssemblerLaw (sampleOffered s a ch value) := by
    unfold sampleOffered
    cases s.asm.modes.get ch
    case off | gate => exact hreceived
    case pass => exact hreceived
  rw [takeSample_eq]
  split
  · exact hoffered.closeRound (sampleOffered_assembly a ch value) true
  · exact hoffered

theorem AssemblerLaw.sampleTaken (h : AssemblerLaw s) (channel low : Byte) (value : Sample) :
    AssemblerLaw (sampleTaken s channel low value) := by
  unfold Machine.sampleTaken
  split
  · exact h
  · split
    · exact h
    · split
      · exact h.takeSample ‹_› _ _
      · exact h

/-- R17: in LOST the timer is stopped, and the LOST notice follows the record of the last round. -/
theorem AssemblerLaw.streamFallsSilent (h : AssemblerLaw s) : AssemblerLaw (streamFallsSilent s) := by
  unfold Machine.streamFallsSilent
  dsimp only
  split
  · rename_i last hstream
    obtain ⟨⟨hpath, hassembly, -, hbackward⟩, hnone, hsame⟩ := h.closeIncomplete
    rw [AssemblyInOrder, hsame, hstream, hnone] at hassembly
    have hlost : PathOk (toBothPaths (Machine.closeIncomplete s) .lost) := by
      refine hpath.sent (x := .lost) rfl rfl ?_
      show newestToCome (Machine.closeIncomplete s) ≠ none
      rw [hassembly]
      nofun
    have hnewest : newestToCome (toBothPaths (Machine.closeIncomplete s) .lost) = some last :=
      
      (sent_newestToCome (s := Machine.closeIncomplete s) (t := toBothPaths (Machine.closeIncomplete s) .lost)
        (x := .lost) rfl rfl).trans hassembly
    refine ⟨hlost, ?_, rfl, hbackward⟩
    simp only [AssemblyInOrder, asmEvent, asmOffer_asm, toBothPaths_asm, hnone]
    exact hnewest
  · exact h
  · exact h

theorem AssemblerLaw.insertMark (h : AssemblerLaw s) (e : Epoch) : AssemblerLaw (insertMark s e) := by
  obtain ⟨hpath, hassembly, hsilence, hbackward⟩ := h
  refine ⟨hpath.insertMark e, ?_, hsilence, hbackward⟩
  rw [AssemblyInOrder, insertMark_newestToCome]
  exact hassembly

theorem AssemblerLaw.takeCommitStart (h : AssemblerLaw s) : AssemblerLaw (takeCommitStart s) := by
  unfold Machine.takeCommitStart
  split
  · dsimp only
    split
    · exact AssemblerLaw.insertMark (s := { s with paths := { s.paths with agentToAsm := _ } }) h _
    · exact h
  · exact h

/-- R22: a node reset empties the store, and the stream is DOWN. -/
theorem AssemblerLaw.takeNodeResetStart (h : AssemblerLaw s) : AssemblerLaw (takeNodeResetStart s) := by
  unfold Machine.takeNodeResetStart
  split
  · refine ⟨h.1.sent (x := .nodeReset) rfl rfl trivial, ?_, rfl, Nat.zero_le _⟩
    exact sent_newestToCome (s := s) (x := .nodeReset) rfl rfl
  · exact h

theorem AssemblerLaw.onLane {f : State → State} (h : AssemblerLaw s) (dt : Nat)
    (hf : ∀ u, AssemblerLaw u → AssemblerLaw (f u)) : AssemblerLaw (onLane s dt f) := by
  obtain ⟨-, heq⟩ | ⟨-, heq⟩ := onLane_cases s dt f <;> rw [heq]
  · refine hf _ ?_
    rw [elapse_spec]
    exact h
  · exact h

theorem assembler_assemblerLaw {c : Instr} (hc : blockOf c = .assembler) (h : AssemblerLaw s)
    (ht : exec c s = .next t) : AssemblerLaw t := by
  cases c <;> cases hc
  all_goals obtain rfl := Host.Outcome.next.inj ht
  case roundCell dt n declared =>
    refine h.onLane dt fun u hu => ?_
    obtain ⟨hlaw, hnone, -⟩ := hu.closeIncomplete
    exact hlaw.judgeRound hnone n declared
  case sampleCell dt channel low value => exact h.onLane dt fun u hu => hu.sampleTaken channel low value
  case feReplyRelay dt body => exact h.onLane dt fun u hu => hu
  case silenceExpiry =>
    unfold silenceExpires
    split
    · exact h
    · split
      · exact AssemblerLaw.streamFallsSilent (s := reach s _) h
      · exact h
  case commitStart => exact h.takeCommitStart
  case nodeResetStart => exact h.takeNodeResetStart

/-! ## The History Store -/

/-- The part of the stream law that the store keeps: its ring holds at most 512 records of one span in order. -/
def RingLaw (h : Store) : Prop := h.ring.length ≤ 512 ∧ RingOrdered h.ring ∧ (h.ring = [] ↔ h.spanStart = none)

theorem streamLaw_iff (s : State) : StreamLaw s ↔ RingLaw s.store ∧ AssemblerLaw s := by
  constructor
  · rintro ⟨hlength, horder, hspan, hpath, hassembly, hsilence, hbackward⟩
    exact ⟨⟨hlength, horder, hspan⟩, hpath, hassembly, hsilence, hbackward⟩
  · rintro ⟨⟨hlength, horder, hspan⟩, hpath, hassembly, hsilence, hbackward⟩
    exact ⟨hlength, horder, hspan, hpath, hassembly, hsilence, hbackward⟩

/-- Of three rounds in order, a round after the last and after the first is after the one between. -/
theorem isAfter_between {y z n x : Round} (hyz : isAfter z y = true) (hyn : isAfter n y = true)
    (hzn : isAfter n z = true) (hnx : isAfter x n = true) (hyx : isAfter x y = true) :
    isAfter x z = true := by
  rw [isAfter_iff] at *
  have hyn' := distance_add (a := y) (b := z) (c := n) (by omega)
  have hyx' := distance_add (a := y) (b := n) (c := x) (by omega)
  have hzx := distance_sub (a := y) (b := z) (c := x) (by omega)
  omega

/-- R24: the other records are after the oldest. -/
theorem RingOrdered.first {ring : List Record} (h : RingOrdered ring) {o : Record} (ho : ring.head? = some o) :
    ∀ x ∈ ring, x = o ∨ isAfter x.round o.round = true := by
  obtain ⟨rest, rfl⟩ := List.head?_eq_some_iff.mp ho
  intro x hx
  exact (List.mem_cons.mp hx).imp_right fun hx => List.rel_of_pairwise_cons h hx

/-- R24: the newest is after the other records. -/
theorem RingOrdered.last {ring : List Record} (h : RingOrdered ring) {n : Record} (hn : ring.getLast? = some n) :
    ∀ x ∈ ring, x = n ∨ isAfter n.round x.round = true := by
  obtain ⟨front, rfl⟩ := List.getLast?_eq_some_iff.mp hn
  obtain ⟨-, -, hafter⟩ := List.pairwise_append.mp h
  intro x hx
  rcases List.mem_append.mp hx with hx | hx
  · exact .inr (hafter x hx n (List.mem_singleton_self n))
  · exact .inl (List.mem_singleton.mp hx)

theorem isAfter_asymm {a b : Round} (h : isAfter b a = true) : isAfter a b = false := by
  by_contra hback
  rw [Bool.not_eq_false, isAfter_iff] at hback
  rw [isAfter_iff] at h
  have hne : a ≠ b := fun heq => by simp [heq] at h
  have := distance_back hne
  omega

/-- R27: a record after the newest is after every record that the reach step leaves. -/
theorem isAfter_reachKept {ring : List Record} (h : RingOrdered ring) {n : Record} (hn : ring.getLast? = some n)
    {x : Round} (hx : isAfter x n.round = true) : ∀ z ∈ reachKept ring x, isAfter x z.round = true := by
  have hsuffix : reachKept ring x <:+ ring := List.dropWhile_suffix _
  have hhead := List.head?_dropWhile_not (fun z : Record => !isAfter x z.round) ring
  unfold reachKept at hsuffix ⊢
  cases hkept : ring.dropWhile fun z : Record => !isAfter x z.round with
  | nil => nofun
  | cons y zs =>
    rw [hkept] at hhead hsuffix
    have hy : isAfter x y.round = true := by simpa using hhead
    have horder : RingOrdered (y :: zs) := h.sublist hsuffix.sublist
    have hlast : (y :: zs).getLast? = some n := by
      obtain ⟨front, rfl⟩ := hsuffix
      simpa [List.getLast?_append] using hn
    intro z hz
    obtain rfl | hzy := horder.first rfl z hz
    · exact hy
    obtain rfl | hnz := horder.last hlast z hz
    · exact hx
    obtain rfl | hny := horder.last hlast y List.mem_cons_self
    · exact absurd ((isAfter_asymm hzy).symm.trans hnz) nofun
    · exact isAfter_between hzy hny hnz hx hy

/-- The record appended becomes the newest, the ring stays in order and within its capacity. -/
theorem appendRecord_ringLaw {x : Record} (h : RingLaw s.store)
    (hx : x.spanStart = true ∨ ∃ m, newestRound s.store = some m ∧ isAfter x.round m = true) :
    RingLaw (appendRecord s x).store ∧ newestRound (appendRecord s x).store = some x.round := by
  obtain ⟨hlength, horder, hspan⟩ := h
  unfold appendRecord
  split
  · exact ⟨⟨Nat.one_le_of_lt (by decide : 0 < 512), List.pairwise_singleton _ _, by simp [storeNotices]⟩, rfl⟩
  · rename_i hnot
    obtain ⟨m, hm, hafter⟩ := hx.resolve_left hnot
    obtain ⟨n, hn, rfl⟩ := Option.map_eq_some_iff.mp hm
    have hreach := isAfter_reachKept horder hn hafter
    have hkept : (reachKept s.store.ring x.round).length ≤ 512 := (List.length_dropWhile_le _ _).trans hlength
    have hring : s.store.ring ≠ [] := by
      intro hnil
      rw [hnil] at hn
      cases hn
    have hsub : (capacityKept (reachKept s.store.ring x.round)).Sublist (reachKept s.store.ring x.round) := by
      unfold capacityKept
      split
      · exact List.drop_sublist _ _
      · exact List.Sublist.refl _
    have hroom : (capacityKept (reachKept s.store.ring x.round)).length ≤ 511 := by
      unfold capacityKept
      split
      · rw [List.length_drop]
        omega
      · rename_i hless
        have : Config.ringCapacity = 512 := rfl
        omega
    dsimp only [storeNotices]
    refine ⟨⟨by rw [List.length_append, List.length_singleton]; omega,
      List.pairwise_append.mpr ⟨?_, List.pairwise_singleton _ _, ?_⟩, ?_⟩, by
      simp [newestRound]⟩
    · exact horder.sublist (hsub.trans (List.dropWhile_sublist _))
    · intro a ha b hb
      rw [List.mem_singleton.mp hb]
      exact hreach a (hsub.subset ha)
    · simp [← hspan, hring]

/-- The store has taken the front of its path, and its newest round is as the path foretold. -/
theorem StreamLaw.taken (h : StreamLaw s) {x : PathItem} {rest : List PathItem}
    (hfront : s.paths.asmToStore = x :: rest) (hring : RingLaw t.store)
    (hnewest : newestRound t.store = newestAfter (newestRound s.store) x) (hasm : t.asm = s.asm)
    (hrest : t.paths.asmToStore = rest) : StreamLaw t := by
  obtain ⟨-, hpath, hassembly, hsilence, hbackward⟩ := (streamLaw_iff s).mp h
  have htocome : newestToCome t = newestToCome s := by
    rw [newestToCome, newestToCome, hfront, hrest, hnewest, List.foldl_cons]
  rw [PathOk, hfront] at hpath
  refine (streamLaw_iff t).mpr ⟨hring, ?_, ?_, ?_, hasm ▸ hbackward⟩
  · rw [PathOk, hrest, hnewest]
    exact hpath.2
  · rw [AssemblyInOrder, htocome, hasm]
    exact hassembly
  · rw [SilenceTimed, hasm]
    exact hsilence

/-- What is at the front of the path may come. -/
theorem StreamLaw.front (h : StreamLaw s) {x : PathItem} {rest : List PathItem}
    (hfront : s.paths.asmToStore = x :: rest) : ItemInOrder (newestRound s.store) x := by
  obtain ⟨-, hpath, -⟩ := (streamLaw_iff s).mp h
  rw [PathOk, hfront] at hpath
  exact hpath.1

theorem emptyStore_ringLaw : RingLaw { ring := [], spanStart := none } := ⟨by decide, List.Pairwise.nil, by simp⟩

/-- R31: no LOST notice meets an empty ring. -/
theorem StreamLaw.lostNotice_completes (h : StreamLaw s) : ∃ t, execHistoryLostNotice s = .next t ∧ StreamLaw t := by
  have hring := ((streamLaw_iff s).mp h).1
  unfold execHistoryLostNotice
  split
  · rename_i rest hfront
    split
    · exact ⟨_, rfl, h.taken hfront hring rfl rfl rfl⟩
    · exact absurd ‹_› (h.front hfront)
  · exact ⟨_, rfl, h⟩

theorem store_streamLaw {c : Instr} (hc : blockOf c = .store) (h : StreamLaw s) (ht : exec c s = .next t) :
    StreamLaw t := by
  have hring := ((streamLaw_iff s).mp h).1
  cases c <;> cases hc
  case historyLostNotice =>
    obtain ⟨u, hu, hlaw⟩ := h.lostNotice_completes
    obtain rfl := Host.Outcome.next.inj (hu.symm.trans ht)
    exact hlaw
  all_goals obtain rfl := Host.Outcome.next.inj ht
  case recordAppend =>
    unfold takeRecordAppend
    split
    · rename_i x rest hfront
      obtain ⟨hkept, hnewest⟩ := appendRecord_ringLaw (s := storeTakes s rest) hring (h.front hfront)
      refine h.taken hfront hkept hnewest ?_ ?_ <;> unfold appendRecord <;> split <;> rfl
    · exact h
  case historyRestartNotice =>
    unfold takeHistoryRestart
    split
    · exact h.taken ‹_› emptyStore_ringLaw rfl rfl rfl
    · exact h
  case historyEpochMark =>
    unfold takeHistoryMark
    split
    · exact h.taken ‹_› hring rfl rfl rfl
    · exact h
  case historyNodeResetNotice =>
    unfold takeHistoryNodeReset
    split
    · exact h.taken ‹_› emptyStore_ringLaw rfl rfl rfl
    · exact h

/-! ## Every step -/

theorem StreamLaw.of_frame (h : StreamLaw s) (hasm : t.asm = s.asm) (hstore : t.store = s.store)
    (hpath : t.paths.asmToStore = s.paths.asmToStore) : StreamLaw t := by
  have htocome : newestToCome t = newestToCome s := by rw [newestToCome, newestToCome, hpath, hstore]
  obtain ⟨hring, hpath', hassembly, hsilence, hbackward⟩ := (streamLaw_iff s).mp h
  refine (streamLaw_iff t).mpr ⟨hstore ▸ hring, ?_, ?_, ?_, hasm ▸ hbackward⟩
  · rw [PathOk, hpath, hstore]; exact hpath'
  · rw [AssemblyInOrder, htocome, hasm]; exact hassembly
  · rw [SilenceTimed, hasm]; exact hsilence

theorem reset_streamLaw : StreamLaw State.reset := by
  refine (streamLaw_iff _).mpr ⟨emptyStore_ringLaw, trivial, rfl, rfl, Nat.zero_le _⟩

theorem exec_streamLaw {c : Instr} (h : StreamLaw s) (ht : exec c s = .next t) : StreamLaw t := by
  have hframe := exec_changesOnly ht
  cases hc : blockOf c <;> rw [hc] at hframe
  case assembler =>
    obtain ⟨hring, hlaw⟩ := (streamLaw_iff s).mp h
    have hstore : t.store = s.store := by rw [hframe]
    exact (streamLaw_iff t).mpr ⟨hstore ▸ hring, assembler_assemblerLaw hc hlaw ht⟩
  case store => exact store_streamLaw hc h ht
  case power =>
    cases c <;> cases hc
    case powerOnReset => cases ht; exact reset_streamLaw
  all_goals exact h.of_frame (by rw [hframe]) (by rw [hframe]) (by rw [hframe])

/-- R31: every command completes: only a LOST notice at an empty ring would not. -/
theorem exec_completes (c : Instr) (h : StreamLaw s) : ∃ t, exec c s = .next t := by
  cases c
  case historyLostNotice =>
    obtain ⟨t, ht, -⟩ := h.lostNotice_completes
    exact ⟨t, ht⟩
  all_goals exact ⟨_, rfl⟩

/-- Settles O16. -/
theorem streamLawKept : Obligations.StreamLawKept := by
  intro s h
  unfold step
  split
  · refine ⟨_, rfl, ?_⟩
    rw [elapse_spec]
    exact h
  · rename_i c rest _
    have hrest : StreamLaw { s with pending := rest } := h
    obtain ⟨t, ht⟩ := exec_completes c hrest
    exact ⟨t, ht, exec_streamLaw hrest ht⟩

end Sys2Proof.Machine
end

section
/-! R87, R101, R102, R111: the tail law: the window list, the queued window cells and the released slots together, the
service pass over them, and the Egress Queue's starts. -/

namespace Sys2Proof.Machine

open Stated

variable {s t : State}

/-! ## The window list, the queued cells and the slots to release -/

/-- R87, R111: the windows `ws`, the queued window cells and the slots whose release is on its way. -/
structure SlotLaw (ws : List Window) (cells : List WindowCell) (gone : List WindowId) : Prop where
  room     : ws.length ≤ 6
  distinct : (windowIds ws).Nodup
  single   : (tailIds cells ++ gone).Nodup
  closed   : ∀ i ∈ tailIds cells ++ gone, ∃ w ∈ ws, w.id = i ∧ w.state = .closed
  order    : cells.Pairwise fun a b => cellWindow a = cellWindow b → isDataCell a = true ∧ isHead b = false
  headed   : ∀ c ∈ cells, ∃ w ∈ ws, w.id = cellWindow c ∧ w.headSent = true
  left     : ∀ i ∈ gone, ∀ c ∈ cells, cellWindow c ≠ i

/-- The slot law of a state. -/
def Slots (s : State) : Prop := SlotLaw s.engine.windows s.egress.windows (releaseIds s.paths.queueToEngine)

theorem tailLaw_iff (s : State) : TailLaw s ↔ Slots s ∧ PassLaw s := by
  constructor
  · rintro ⟨⟨hroom, hdistinct⟩, hsingle, hclosed, ⟨horder, hheaded, hleft⟩, hpass⟩
    exact ⟨⟨hroom, hdistinct, hsingle, hclosed, horder, hheaded, hleft⟩, hpass⟩
  · rintro ⟨⟨hroom, hdistinct, hsingle, hclosed, horder, hheaded, hleft⟩, hpass⟩
    exact ⟨⟨hroom, hdistinct⟩, hsingle, hclosed, ⟨horder, hheaded, hleft⟩, hpass⟩

variable {ws : List Window} {cells : List WindowCell} {gone : List WindowId}

/-- A change of a window that keeps its slot: its id, its head sent, and CLOSED. -/
def KeepsSlots (f : Window → Window) : Prop :=
  ∀ w, (f w).id = w.id ∧ (w.headSent = true → (f w).headSent = true) ∧ (w.state = .closed → (f w).state = .closed)

theorem windowIds_map {f : Window → Window} (hf : KeepsSlots f) : windowIds (ws.map f) = windowIds ws := by
  unfold windowIds
  rw [List.map_map]
  exact List.map_congr_left fun w _ => (hf w).1

theorem SlotLaw.map (h : SlotLaw ws cells gone) {f : Window → Window} (hf : KeepsSlots f) :
    SlotLaw (ws.map f) cells gone where
  room := by rw [List.length_map]; exact h.room
  distinct := by rw [windowIds_map hf]; exact h.distinct
  single := h.single
  closed i hi := by
    obtain ⟨w, hw, hid, hstate⟩ := h.closed i hi
    obtain ⟨hid', -, hstate'⟩ := hf w
    exact ⟨f w, List.mem_map_of_mem hw, hid'.trans hid, hstate' hstate⟩
  order := h.order
  headed c hc := by
    obtain ⟨w, hw, hid, hhead⟩ := h.headed c hc
    obtain ⟨hid', hhead', -⟩ := hf w
    exact ⟨f w, List.mem_map_of_mem hw, hid'.trans hid, hhead' hhead⟩
  left := h.left

/-- R102, R112, R115: a headless window that leaves the list has no cell and no tail. -/
theorem SlotLaw.filter (h : SlotLaw ws cells gone) {p : Window → Bool}
    (hp : ∀ w ∈ ws, p w = false → w.headSent = false ∧ w.state ≠ .closed) : SlotLaw (ws.filter p) cells gone where
  room := (List.length_filter_le _ _).trans h.room
  distinct := h.distinct.sublist (List.filter_sublist.map _)
  single := h.single
  closed i hi := by
    obtain ⟨w, hw, hid, hstate⟩ := h.closed i hi
    refine ⟨w, List.mem_filter.mpr ⟨hw, ?_⟩, hid, hstate⟩
    by_contra hout
    exact (hp w hw (by simpa using hout)).2 hstate
  order := h.order
  headed c hc := by
    obtain ⟨w, hw, hid, hhead⟩ := h.headed c hc
    refine ⟨w, List.mem_filter.mpr ⟨hw, ?_⟩, hid, hhead⟩
    by_contra hout
    exact absurd ((hp w hw (by simpa using hout)).1.symm.trans hhead) nofun
  left := h.left

/-- R111: the slot of a tail whose transmission has started is released. -/
theorem SlotLaw.release {i : WindowId} (h : SlotLaw ws cells (i :: gone)) :
    SlotLaw (ws.filter fun w => !(decide (w.id = i) && decide (w.state = .closed))) cells gone where
  room := (List.length_filter_le _ _).trans h.room
  distinct := h.distinct.sublist (List.filter_sublist.map _)
  single := h.single.sublist (List.Sublist.append_left (List.sublist_cons_self _ _) _)
  closed j hj := by
    obtain ⟨hij, -⟩ := List.nodup_cons.mp (List.perm_middle.nodup_iff.mp h.single)
    have hj' : j ∈ tailIds cells ++ i :: gone := List.perm_middle.mem_iff.mpr (List.mem_cons_of_mem _ hj)
    obtain ⟨w, hw, rfl, hstate⟩ := h.closed j hj'
    have hne : w.id ≠ i := fun heq => hij (heq ▸ hj)
    exact ⟨w, List.mem_filter.mpr ⟨hw, by simp [hne]⟩, rfl, hstate⟩
  order := h.order
  headed c hc := by
    obtain ⟨w, hw, hid, hhead⟩ := h.headed c hc
    have hne : w.id ≠ i := hid ▸ h.left i List.mem_cons_self c hc
    exact ⟨w, List.mem_filter.mpr ⟨hw, by simp [hne]⟩, hid, hhead⟩
  left j hj := h.left j (List.mem_cons_of_mem _ hj)

/-- R93: a window with a fresh id joins the list. -/
theorem SlotLaw.create (h : SlotLaw ws cells gone) {w : Window} (hroom : ws.length < 6) (hid : w.id ∉ windowIds ws) :
    SlotLaw (ws ++ [w]) cells gone where
  room := by rw [List.length_append]; exact hroom
  distinct := by
    rw [windowIds, List.map_append, List.nodup_append]
    refine ⟨h.distinct, List.nodup_singleton _, fun a ha b hb => ?_⟩
    rintro rfl
    exact hid (List.mem_singleton.mp hb ▸ ha)
  single := h.single
  closed i hi := by
    obtain ⟨x, hx, hrest⟩ := h.closed i hi
    exact ⟨x, List.mem_append_left _ hx, hrest⟩
  order := h.order
  headed c hc := by
    obtain ⟨x, hx, hrest⟩ := h.headed c hc
    exact ⟨x, List.mem_append_left _ hx, hrest⟩
  left := h.left

/-- The id of a tail in the queue is its cell's window. -/
theorem mem_tailIds {c : WindowCell} (hc : c ∈ cells) (hdata : isDataCell c = false) :
    cellWindow c ∈ tailIds cells := by
  cases c
  case tail x => exact List.mem_filterMap.mpr ⟨_, hc, rfl⟩
  all_goals cases hdata

theorem tailIds_append (cs : List WindowCell) : tailIds (cells ++ cs) = tailIds cells ++ tailIds cs :=
  List.filterMap_append

theorem tailIds_of_data {cs : List WindowCell} (h : ∀ c ∈ cs, isDataCell c = true) : tailIds cs = [] := by
  refine List.filterMap_eq_nil_iff.mpr fun c hc => ?_
  cases c
  case tail => exact absurd (h _ hc) nofun
  all_goals rfl

/-- R111: a window that is not CLOSED has no tail out. -/
theorem SlotLaw.no_tail (h : SlotLaw ws cells gone) {w : Window} (hw : w ∈ ws) (hstate : w.state ≠ .closed) :
    w.id ∉ tailIds cells ++ gone := by
  intro hout
  obtain ⟨x, hx, hid, hclosed⟩ := h.closed _ hout
  exact hstate (eq_of_id h.distinct hx hw hid ▸ hclosed)

/-- R107: cells of a window in progress, its head sent, join the queue. -/
theorem SlotLaw.append_data (h : SlotLaw ws cells gone) {w : Window} (hw : w ∈ ws) (hhead : w.headSent = true)
    (hstate : w.state ≠ .closed) {cs : List WindowCell}
    (hcs : ∀ c ∈ cs, cellWindow c = w.id ∧ isDataCell c = true)
    (hfirst : cs.Pairwise fun _ b => isHead b = false)
    (hheads : ∀ a ∈ cells, cellWindow a = w.id → ∀ b ∈ cs, isHead b = false) : SlotLaw ws (cells ++ cs) gone where
  room := h.room
  distinct := h.distinct
  single := by
    rw [tailIds_append, tailIds_of_data fun c hc => (hcs c hc).2, List.append_nil]
    exact h.single
  closed := by
    rw [tailIds_append, tailIds_of_data fun c hc => (hcs c hc).2, List.append_nil]
    exact h.closed
  order := by
    refine List.pairwise_append.mpr ⟨h.order, ?_, fun a ha b hb hab => ?_⟩
    · exact hfirst.imp_of_mem fun ha _ hb _ => ⟨(hcs _ ha).2, hb⟩
    · obtain ⟨hid, -⟩ := hcs b hb
      refine ⟨?_, hheads a ha (hab.trans hid) b hb⟩
      by_contra htail
      exact h.no_tail hw hstate (List.mem_append_left _ (hab.trans hid ▸ mem_tailIds ha (by simpa using htail)))
  headed c hc := by
    rcases List.mem_append.mp hc with hc | hc
    · exact h.headed c hc
    · exact ⟨w, hw, (hcs c hc).1.symm, hhead⟩
  left i hi c hc := by
    rcases List.mem_append.mp hc with hc | hc
    · exact h.left i hi c hc
    · rintro rfl
      exact h.no_tail hw hstate (List.mem_append_right _ ((hcs c hc).1 ▸ hi))

/-- R102: the tail of a window that becomes CLOSED joins the queue. -/
theorem SlotLaw.append_tail (h : SlotLaw ws cells gone) {w : Window} {x : WinTail} (hw : w ∈ ws) (hid : w.id = x.id)
    (hhead : w.headSent = true) (hstate : w.state ≠ .closed) :
    SlotLaw (ws.map fun y => if y.id = x.id then { y with state := .closed } else y) (cells ++ [.tail x]) gone := by
  have hkeeps : KeepsSlots fun y : Window => if y.id = x.id then { y with state := .closed } else y := by
    intro y
    dsimp only
    split
    · exact ⟨rfl, id, fun _ => rfl⟩
    · exact ⟨rfl, id, id⟩
  have hmap := h.map hkeeps
  have hnone : x.id ∉ tailIds cells ++ gone := hid ▸ h.no_tail hw hstate
  have hperm : (tailIds (cells ++ [.tail x]) ++ gone).Perm (x.id :: (tailIds cells ++ gone)) := by
    rw [tailIds_append, List.append_assoc]
    exact List.perm_middle
  have hclosed : ({ w with state := .closed } : Window) ∈
      ws.map fun y => if y.id = x.id then { y with state := .closed } else y :=
    List.mem_map.mpr ⟨w, hw, if_pos hid⟩
  refine ⟨hmap.room, hmap.distinct, ?_, fun i hi => ?_, ?_, fun c hc => ?_, fun i hi c hc => ?_⟩
  · exact hperm.nodup_iff.mpr (List.nodup_cons.mpr ⟨hnone, h.single⟩)
  · rcases List.mem_cons.mp (hperm.mem_iff.mp hi) with rfl | hi
    · exact ⟨_, hclosed, hid, rfl⟩
    · exact hmap.closed i hi
  · refine List.pairwise_append.mpr ⟨h.order, List.pairwise_singleton _ _, fun a ha b hb hab => ?_⟩
    obtain rfl := List.mem_singleton.mp hb
    refine ⟨?_, rfl⟩
    by_contra htail
    have hax : cellWindow a = x.id := hab
    exact hnone (List.mem_append_left _ (hax ▸ mem_tailIds ha (by simpa using htail)))
  · rcases List.mem_append.mp hc with hc | hc
    · exact hmap.headed c hc
    · obtain rfl := List.mem_singleton.mp hc
      exact ⟨_, hclosed, hid, hhead⟩
  · rcases List.mem_append.mp hc with hc | hc
    · exact h.left i hi c hc
    · obtain rfl := List.mem_singleton.mp hc
      rintro rfl
      exact hnone (List.mem_append_right _ hi)

/-- R142: the first cell leaves the queue; a tail's slot is then to be released. -/
theorem SlotLaw.start {c : WindowCell} (h : SlotLaw ws (c :: cells) gone) :
    SlotLaw ws cells (gone ++ releaseIds (startNotices (.window c))) := by
  have hrest : SlotLaw ws cells gone := by
    have hsub : (tailIds cells).Sublist (tailIds (c :: cells)) := (List.sublist_cons_self c cells).filterMap _
    exact ⟨h.room, h.distinct, h.single.sublist (hsub.append_right _),
      fun i hi => h.closed i ((hsub.append_right _).subset hi), h.order.of_cons,
      fun x hx => h.headed x (List.mem_cons_of_mem _ hx), fun i hi x hx => h.left i hi x (List.mem_cons_of_mem _ hx)⟩
  cases c
  case head | sample =>
    rw [show gone ++ releaseIds _ = gone from List.append_nil _]
    exact hrest
  case tail x =>
    have hperm : (tailIds cells ++ (gone ++ [x.id])).Perm (tailIds (.tail x :: cells) ++ gone) := by
      rw [← List.append_assoc]
      exact List.perm_append_comm
    refine ⟨h.room, h.distinct, hperm.nodup_iff.mpr h.single, fun i hi => h.closed i (hperm.mem_iff.mp hi),
      hrest.order, hrest.headed, fun i hi y hy => ?_⟩
    rcases List.mem_append.mp hi with hi | hi
    · exact hrest.left i hi y hy
    · obtain rfl := List.mem_singleton.mp hi
      intro hxy
      exact absurd (List.rel_of_pairwise_cons h.order hy hxy.symm).1 nofun

/-! ## Fresh ids (R87) -/

/-- R87: the id found after `k` rises: every id before it is held. -/
theorem freeId_spec (ws : List Window) (n : Nat) (i : WindowId) :
    ∃ k ≤ n, freeId ws n i = i + BitVec.ofNat 16 k ∧ (∀ j < k, i + BitVec.ofNat 16 j ∈ windowIds ws) ∧
      (k < n → freeId ws n i ∉ windowIds ws) := by
  induction n generalizing i with
  | zero => exact ⟨0, le_rfl, by simp [freeId], nofun, nofun⟩
  | succ n ih =>
    have hany : (ws.any fun w => decide (w.id = i)) = true ↔ i ∈ windowIds ws := by
      simp [windowIds]
    have hnext (k : Nat) : i + 1 + BitVec.ofNat 16 k = i + BitVec.ofNat 16 (k + 1) := by
      rw [BitVec.add_assoc, Nat.add_comm k 1, BitVec.ofNat_add]
      rfl
    unfold freeId
    split
    · rename_i hheld
      obtain ⟨k, hk, heq, hbelow, hfresh⟩ := ih (i + 1)
      refine ⟨k + 1, Nat.succ_le_succ hk, heq.trans (hnext k), fun j hj => ?_,
        fun h => hfresh (Nat.lt_of_succ_lt_succ h)⟩
      cases j with
      | zero => simpa using hany.mp hheld
      | succ j => exact hnext j ▸ hbelow j (Nat.lt_of_succ_lt_succ hj)
    · rename_i hfree
      exact ⟨0, Nat.zero_le _, by simp, nofun, fun _ => fun hmem => hfree (hany.mpr hmem)⟩

/-- R87: with fewer windows than ids, one rise for each window finds a fresh id. -/
theorem freeId_fresh (ws : List Window) (i : WindowId) (hfew : ws.length < 65536) :
    freeId ws ws.length i ∉ windowIds ws := by
  obtain ⟨k, hk, heq, hbelow, hfresh⟩ := freeId_spec ws ws.length i
  rcases Nat.lt_or_eq_of_le hk with hlt | rfl
  · exact hfresh hlt
  intro hheld
  have hall : (List.range (ws.length + 1)).map (fun j => i + BitVec.ofNat 16 j) ⊆ windowIds ws := by
    intro x hx
    obtain ⟨j, hj, rfl⟩ := List.mem_map.mp hx
    rcases Nat.lt_succ_iff_lt_or_eq.mp (List.mem_range.mp hj) with hj | rfl
    · exact hbelow j hj
    · exact heq ▸ hheld
  have hnodup : ((List.range (ws.length + 1)).map fun j => i + BitVec.ofNat 16 j).Nodup := by
    refine List.Nodup.map_on (fun a ha b hb hab => ?_) List.nodup_range
    have hofNat : BitVec.ofNat 16 a = BitVec.ofNat 16 b := (BitVec.add_right_inj _).mp hab
    have hnat := congrArg BitVec.toNat hofNat
    rw [List.mem_range] at ha hb
    rw [BitVec.toNat_ofNat, BitVec.toNat_ofNat] at hnat
    omega
  have hlength := (hnodup.subperm hall).length_le
  simp [windowIds] at hlength

/-! ## The service pass (R101) -/

/-- The window cells that the engine offers. -/
def windowOffers (s : State) : List EngineOffer := s.paths.engineOffers.filter isWindowOffer

theorem windowOffers_offer {x : EngineOffer} (hx : isWindowOffer x = true) :
    windowOffers (engineOffer s x) = windowOffers s ++ [x] := by
  simp [windowOffers, hx]

theorem closeIfDone_keepsSlots : KeepsSlots closeIfDone := by
  intro w
  obtain heq | ⟨hstate, -, heq⟩ := closeIfDone_cases w <;> rw [heq]
  · exact ⟨rfl, id, id⟩
  · exact ⟨rfl, id, fun hclosed => absurd (hstate.symm.trans hclosed) nofun⟩

theorem emitted_keepsSlots (k : Nat) : KeepsSlots (emitted k) := fun _ => closeIfDone_keepsSlots _

theorem settleSkip_keepsSlots (h : Store) : KeepsSlots (settleSkip h) := by
  intro w
  by_cases hw : inProgress w = false
  · rw [settleSkip_of_settled hw]
    exact ⟨rfl, id, id⟩
  · refine ⟨settleSkip_id h w, fun hhead => ?_, fun hclosed => ?_⟩
    · unfold settleSkip
      split
      · refine (closeIfDone_keepsSlots _).2.1 ?_
        unfold settleBehind
        split
        · exact hhead
        · split <;> exact hhead
      · split
        · exact (closeIfDone_keepsSlots _).2.1 hhead
        · exact hhead
    · exact absurd (by simp [inProgress, hclosed]) hw

/-- A change of the window with one id. -/
theorem KeepsSlots.update {f : Window → Window} (hf : KeepsSlots f) (i : WindowId) :
    KeepsSlots fun w => if w.id = i then f w else w := by
  intro w
  dsimp only
  split
  · exact hf w
  · exact ⟨rfl, id, id⟩

/-- What a pass comes to: the law; or it has run out of turns with nothing offered. -/
def PassEnded (s t : State) : Prop :=
  Slots t ∧ (PassLaw t ∨ (t.engine.pass ≠ none ∧ t.paths.engineOffers = s.paths.engineOffers))

theorem not_closing_of_find (h : firstClosing s = none) : ∀ w ∈ s.engine.windows, w.state ≠ .closing := by
  intro w hw
  simpa using List.find?_eq_none.mp h w hw

theorem endPass_passLaw (hoffers : windowOffers s = []) (hnone : ∀ w ∈ s.engine.windows, w.state ≠ .closing) :
    PassLaw (endPass s) := ⟨hoffers, rfl, hnone⟩

theorem offer_passLaw {p : Pass} {x : EngineOffer} (hpass : s.engine.pass = some p) (hoffers : windowOffers s = [])
    (hx : isWindowOffer x = true) (howned : OfferOwned s.engine.windows x) : PassLaw (engineOffer s x) := by
  have hfilter := windowOffers_offer (s := s) hx
  rw [hoffers] at hfilter
  unfold PassLaw
  rw [engineOffer_engine, hpass]
  exact ⟨x, hfilter, howned⟩

theorem headReady_iff {w : Window} : headReady s w = true ↔
    inProgress w = true ∧ w.headSent = false ∧ occupancyOf s < Config.dataLimit := by
  simp [headReady, and_assoc]

/-- R105: a ready window that is not round ready is head ready. -/
theorem headReady_of_pick {w : Window} (hpick : pickReady s = some w) (hround : roundReady s w = none) :
    headReady s w = true := by
  have hready := (pickReady_mem hpick).2
  rwa [isReady, hround, Option.isSome_none, Bool.or_false] at hready

theorem groupOf_id {w : Window} {x : Record} : ∀ y ∈ groupOf w x, y.id = w.id := by
  intro y hy
  obtain ⟨i, -, hi⟩ := List.mem_filterMap.mp hy
  obtain ⟨v, -, rfl⟩ := Option.map_eq_some_iff.mp hi
  rfl

/-- R105, R107: the group of a round-ready window is its own. -/
theorem roundReady_id {w : Window} {g : List WinSample} (h : roundReady s w = some g) : ∀ y ∈ g, y.id = w.id := by
  unfold roundReady at h
  split at h
  · split at h
    · split at h
      · obtain rfl := Option.some.inj h
        exact groupOf_id
      · cases h
    · cases h
  · cases h

theorem runPass_ended : ∀ (fuel : Nat) (s : State) (p : Pass), s.engine.pass = some p → Slots s →
    windowOffers s = [] → PassEnded s (runPass fuel s) := by
  intro fuel
  induction fuel with
  | zero =>
    intro s p hp hslots _
    exact ⟨hslots, .inr ⟨by simp [runPass, hp], rfl⟩⟩
  | succ n ih =>
    intro s p hp hslots hoffers
    unfold runPass
    split
    · rename_i hnone
      cases hp.symm.trans hnone
    rename_i q hq
    obtain rfl := Option.some.inj (hp.symm.trans hq)
    split
    · rename_i w hw
      have hmem := List.mem_of_find?_eq_some hw
      have hclosing : w.state = .closing := by simpa using List.find?_some hw
      split
      · rename_i hhead
        exact ⟨hslots, .inl (offer_passLaw hp hoffers rfl ⟨w, hmem, rfl, hclosing, hhead⟩)⟩
      · rename_i hhead
        refine ih _ p hp (hslots.filter fun x hx hgone => ?_) hoffers
        obtain rfl : x = w := by simpa using hgone
        exact ⟨by simpa using hhead, fun hclosed => absurd (hclosing.symm.trans hclosed) nofun⟩
    rename_i hnone
    have hopen := not_closing_of_find (s := s) hnone
    split
    · split
      · exact ih _ _ rfl (hslots.map (settleSkip_keepsSlots _)) hoffers
      · exact ⟨hslots, .inl (endPass_passLaw hoffers hopen)⟩
    · split
      · exact ⟨hslots, .inl (endPass_passLaw hoffers hopen)⟩
      rename_i w hpick
      obtain ⟨hmem, hready⟩ := pickReady_mem hpick
      split
      · rename_i hround
        obtain ⟨hprogress, hhead, -⟩ := headReady_iff.mp (headReady_of_pick hpick hround)
        exact ⟨hslots, .inl (offer_passLaw hp hoffers rfl ⟨hopen, w, hmem, rfl, hprogress, hhead⟩)⟩
      · exact ih _ p hp (hslots.map ((emitted_keepsSlots 0).update w.id)) hoffers
      · rename_i g hne hround
        obtain ⟨-, hprogress, hhead⟩ := roundReady_has hround
        exact ⟨hslots, .inl (offer_passLaw hp hoffers rfl
          ⟨hopen, hne, w, hmem, roundReady_id hround, hprogress, hhead⟩)⟩

/-- R101: a service pass that starts with nothing offered ends with the law. -/
theorem resumePass_tailLaw {p : Pass} (hp : s.engine.pass = some p) (hslots : Slots s) (hoffers : windowOffers s = []) :
    TailLaw (resumePass s) := by
  obtain ⟨hslots', hlaw | ⟨hpass, hsame⟩⟩ := runPass_ended (passFuel s) s p hp hslots hoffers
  · exact (tailLaw_iff _).mpr ⟨hslots', hlaw⟩
  · obtain hstopped | ⟨x, hx⟩ := resumePass_stops s hslots.distinct
    · exact absurd hstopped hpass
    · have hlength := congrArg List.length (hsame.symm.trans hx)
      simp at hlength

end Sys2Proof.Machine
end

section
/-! R87, R101, R102, R111: the tail law through the engine's events, the queue's answers and its starts. -/

namespace Sys2Proof.Machine

open Stated

variable {s t : State}

/-! ## The engine's events -/

/-- A change of windows in progress keeps the slots. -/
theorem KeepsSlots.of_progress {f : Window → Window} (hid : ∀ w, (f w).id = w.id)
    (hhead : ∀ w, (f w).headSent = w.headSent) (hsame : ∀ w, inProgress w = false → f w = w) : KeepsSlots f := by
  intro w
  refine ⟨hid w, (hhead w).trans, fun hclosed => ?_⟩
  rw [hsame w (by simp [inProgress, hclosed])]
  exact hclosed

theorem truncateWindow_keepsSlots : KeepsSlots truncateWindow := by
  refine .of_progress (fun w => ?_) (fun w => ?_) (fun w hw => ?_)
  · unfold truncateWindow; split <;> rfl
  · unfold truncateWindow; split <;> rfl
  · simp [truncateWindow, hw]

theorem abortWindow_keepsSlots : KeepsSlots abortWindow := by
  refine .of_progress (fun w => ?_) (fun w => ?_) (fun w hw => ?_)
  · unfold abortWindow; split <;> rfl
  · unfold abortWindow; split <;> rfl
  · simp [abortWindow, hw]

theorem abortWindows_slots (h : Slots s) : Slots (abortWindows s) := by
  refine (h.filter (p := fun w => !(inProgress w && !w.headSent)) fun w _ hgone => ?_).map abortWindow_keepsSlots
  simp only [Bool.not_eq_false', Bool.and_eq_true, Bool.not_eq_true'] at hgone
  obtain ⟨hprogress, hhead⟩ := hgone
  exact ⟨hhead, fun hclosed => by simp [inProgress, hclosed] at hprogress⟩

theorem flushWindows_slots (h : Slots s) : Slots (flushWindows s) := SlotLaw.map h truncateWindow_keepsSlots

theorem placedWindow_id (w : Window) : (placedWindow s w).id = w.id := by
  unfold placedWindow drain
  split
  · split <;> simp
  · split
    · simp
    · split <;> simp

theorem OpenOutcome.slots {q : OpenRequest} {u : State} (hout : OpenOutcome s q u) (h : Slots s) : Slots u := by
  cases hout
  case held | full | ignored => exact h
  case extended w _ _ _ =>
    refine SlotLaw.map h (KeepsSlots.update (fun x => ?_) w.id)
    exact ⟨rfl, id, id⟩
  case created _ hroom =>
    refine SlotLaw.create h hroom ?_
    rw [placedWindow_id]
    exact freeId_fresh _ _ (by omega)

theorem OpenOutcome.windowOffers {q : OpenRequest} {u : State} (hout : OpenOutcome s q u) :
    windowOffers u = windowOffers s := by
  cases hout
  case held | full => simp [Machine.windowOffers, refuseOpen, isWindowOffer]
  all_goals rfl

/-- Every event keeps the slots. -/
theorem EngineTakes.slots {u : State} (htakes : EngineTakes s u) (h : Slots s) : Slots u := by
  have hdrain {p : Window → Prop} [DecidablePred p] {f : Window → Window} (hp : ∀ w, p w → w.state = .opened)
      (hf : ∀ w, (f w).id = w.id ∧ (w.headSent = true → (f w).headSent = true)) :
      KeepsSlots fun w => if p w then f w else w := by
    intro w
    dsimp only
    split
    · rename_i hpw
      exact ⟨(hf w).1, (hf w).2, fun hclosed => absurd ((hp w hpw).symm.trans hclosed) nofun⟩
    · exact ⟨rfl, id, id⟩
  cases htakes
  case request q rest hitems hout => exact hout.slots h
  case mark | overwritten | sessionOpen => exact h
  case safeState rest _ => exact abortWindows_slots (s := { s with paths := { s.paths with agentToEngine := rest } }) h
  case nodeReset rest _ => exact abortWindows_slots (s := { s with paths := { s.paths with tableToEngine := rest } }) h
  case stored r rest _ =>
    unfold takeStored
    split
    · exact h
    · refine SlotLaw.map h (hdrain (fun w hw => hw.1) fun w => ?_)
      obtain ⟨hid, hhead, -⟩ := closeIfDone_keepsSlots { w with state := .draining }
      exact ⟨hid, hhead⟩
  case lost n rest _ =>
    unfold takeLost
    split
    · exact h
    · refine SlotLaw.map h (hdrain (fun w hw => hw) fun w => ?_)
      obtain ⟨st, -, -, heq⟩ := shortenWindow_cases (earlier w.last n) w
      rw [heq]
      exact ⟨rfl, id⟩
  case flushedRestart rest _ =>
    unfold takeFlushedRestart
    split
    · exact h
    · exact flushWindows_slots h
  case flushedNodeReset rest _ =>
    unfold takeFlushedNodeReset
    split
    · exact h
    · exact flushWindows_slots h
  case room rest hitems =>
    unfold Slots at h
    rw [hitems] at h
    exact h
  case tailTransmitted i rest hitems =>
    unfold Slots at h
    rw [hitems] at h
    exact h.release

theorem EngineTakes.windowOffers {u : State} (htakes : EngineTakes s u) : windowOffers u = windowOffers s := by
  cases htakes
  case request hout => exact hout.windowOffers
  case stored => unfold takeStored; split <;> rfl
  case lost => unfold takeLost; split <;> rfl
  case flushedRestart => unfold takeFlushedRestart; split <;> rfl
  case flushedNodeReset => unfold takeFlushedNodeReset; split <;> rfl
  all_goals rfl

/-! ## The queue's answers (R138) -/

/-- A window cell at the front of the engine's offers is the one that the waiting pass has offered. -/
theorem PassLaw.offered (h : PassLaw s) {x : EngineOffer} {rest : List EngineOffer}
    (hoffers : s.paths.engineOffers = x :: rest) (hx : isWindowOffer x = true) :
    (∃ p, s.engine.pass = some p) ∧ windowOffers (queueTakesEngine s rest) = [] ∧ OfferOwned s.engine.windows x := by
  unfold PassLaw at h
  rw [hoffers, List.filter_cons_of_pos hx] at h
  split at h
  · exact absurd h.1 nofun
  · rename_i p hp
    obtain ⟨y, hy, howned⟩ := h
    obtain ⟨rfl, hrest⟩ := List.cons.inj hy
    exact ⟨⟨p, hp⟩, hrest, howned⟩

theorem headAdmitted_tailLaw {x : WinHead} {rest : List EngineOffer} (h : TailLaw s)
    (hoffers : s.paths.engineOffers = .head x :: rest) :
    TailLaw (resumePass (updateWindow (admitWindow (queueTakesEngine s rest) [.head x]) x.id
      fun w => { w with headSent := true })) := by
  obtain ⟨hslots, hpass⟩ := (tailLaw_iff s).mp h
  obtain ⟨⟨p, hp⟩, hnone, -, w, hw, hid, hprogress, hhead⟩ := hpass.offered hoffers rfl
  have hkeeps : KeepsSlots fun y : Window => if y.id = x.id then { y with headSent := true } else y :=
    KeepsSlots.update (f := fun y => { y with headSent := true }) (fun y => ⟨rfl, fun _ => rfl, id⟩) x.id
  have hstate : w.state ≠ .closed := fun hclosed => by simp [inProgress, hclosed] at hprogress
  have hw' : ({ w with headSent := true } : Window) ∈
      s.engine.windows.map fun y => if y.id = x.id then { y with headSent := true } else y :=
    List.mem_map.mpr ⟨w, hw, if_pos hid⟩
  refine resumePass_tailLaw hp ?_ hnone
  refine (hslots.map hkeeps).append_data hw' rfl hstate ?_ (List.pairwise_singleton _ _) ?_
  · intro c hc
    obtain rfl := List.mem_singleton.mp hc
    exact ⟨hid.symm, rfl⟩
  · intro a ha haw
    obtain ⟨y, hy, hya, hheaded⟩ := hslots.headed a ha
    obtain rfl := eq_of_id hslots.distinct hy hw (hya.trans haw)
    exact absurd (hhead.symm.trans hheaded) nofun

theorem groupAdmitted_tailLaw {g : List WinSample} {rest : List EngineOffer} (h : TailLaw s)
    (hoffers : s.paths.engineOffers = .group g :: rest) :
    TailLaw (resumePass (groupEmitted (admitWindow (queueTakesEngine s rest) (g.map .sample)) g)) := by
  obtain ⟨hslots, hpass⟩ := (tailLaw_iff s).mp h
  obtain ⟨⟨p, hp⟩, hnone, -, hne, w, hw, hids, hprogress, hhead⟩ := hpass.offered hoffers rfl
  have hstate : w.state ≠ .closed := fun hclosed => by simp [inProgress, hclosed] at hprogress
  have hadmitted : SlotLaw s.engine.windows (s.egress.windows ++ g.map .sample) (releaseIds s.paths.queueToEngine) := by
    refine hslots.append_data hw hhead hstate ?_ ?_ ?_
    · intro c hc
      obtain ⟨y, hy, rfl⟩ := List.mem_map.mp hc
      exact ⟨hids y hy, rfl⟩
    · exact List.pairwise_map.mpr (List.pairwise_of_forall fun _ _ => rfl)
    · intro a _ _ b hb
      obtain ⟨y, -, rfl⟩ := List.mem_map.mp hb
      rfl
  cases g with
  | nil => exact absurd rfl hne
  | cons y ys => exact resumePass_tailLaw hp (hadmitted.map ((emitted_keepsSlots _).update y.id)) hnone

theorem tailAdmitted_tailLaw {x : WinTail} {rest : List EngineOffer} (h : TailLaw s)
    (hoffers : s.paths.engineOffers = .tail x :: rest) :
    TailLaw (resumePass (updateWindow (admitWindow (queueTakesEngine s rest) [.tail x]) x.id
      fun w => { w with state := .closed })) := by
  obtain ⟨hslots, hpass⟩ := (tailLaw_iff s).mp h
  obtain ⟨⟨p, hp⟩, hnone, w, hw, hid, hclosing, hhead⟩ := hpass.offered hoffers rfl
  exact resumePass_tailLaw hp
    (hslots.append_tail hw hid hhead fun hclosed => absurd (hclosing.symm.trans hclosed) nofun) hnone

theorem declined_tailLaw {x : EngineOffer} {rest : List EngineOffer} (h : TailLaw s)
    (hoffers : s.paths.engineOffers = x :: rest) (hx : isWindowOffer x = true) (hnot : ∀ y, x ≠ .tail y) :
    TailLaw (endPass (queueTakesEngine s rest)) := by
  obtain ⟨hslots, hpass⟩ := (tailLaw_iff s).mp h
  obtain ⟨-, hnone, howned⟩ := hpass.offered hoffers hx
  refine (tailLaw_iff _).mpr ⟨hslots, endPass_passLaw hnone ?_⟩
  cases x
  case event => cases hx
  case tail y => exact absurd rfl (hnot y)
  case head | group => exact howned.1

theorem EngineMove.tailLaw (hmove : EngineMove s t) (h : TailLaw s) : TailLaw t := by
  cases hmove
  case stays => exact h
  case event u hnone htakes =>
    obtain ⟨hslots, hpass⟩ := (tailLaw_iff s).mp h
    have hoffers : windowOffers s = [] := by
      unfold PassLaw at hpass
      rw [hnone] at hpass
      exact hpass.1
    exact resumePass_tailLaw rfl (htakes.slots hslots) (htakes.windowOffers.trans hoffers)
  case headAdmitted x rest hoffers => exact headAdmitted_tailLaw h hoffers
  case groupAdmitted g rest hoffers => exact groupAdmitted_tailLaw h hoffers
  case tailAdmitted x rest hoffers => exact tailAdmitted_tailLaw h hoffers
  case declined x rest hoffers hx hnot => exact declined_tailLaw h hoffers hx hnot

/-! ## The Egress Queue -/

theorem TailLaw.of_frame (h : TailLaw s) (hengine : t.engine = s.engine) (hcells : t.egress.windows = s.egress.windows)
    (hnotices : t.paths.queueToEngine = s.paths.queueToEngine) (hoffers : windowOffers t = windowOffers s) :
    TailLaw t := by
  obtain ⟨hslots, hpass⟩ := (tailLaw_iff s).mp h
  refine (tailLaw_iff t).mpr ⟨?_, ?_⟩
  · unfold Slots
    rw [hengine, hcells, hnotices]
    exact hslots
  · unfold windowOffers at hoffers
    unfold PassLaw
    rw [hengine, hoffers]
    exact hpass

theorem admitEvent_tailLaw (e : EventCell) (h : TailLaw s) : TailLaw (admitEvent s e) := by
  obtain ⟨-, heq⟩ | ⟨-, -, heq⟩ | ⟨-, -, heq⟩ := admitEvent_cases s e <;> rw [heq] <;> exact h

/-- R141: taking a cell leaves the WINDOW FIFO, or takes its first cell. -/
theorem chooseCell_windows {q rest : Egress} {c : EgressCell} (h : chooseCell q = some (c, rest)) :
    (∃ w, c = .window w ∧ q.windows = w :: rest.windows) ∨
      (rest.windows = q.windows ∧ releaseIds (startNotices c) = []) := by
  unfold chooseCell at h
  split at h <;> cases h
  case h_3 hwindows => exact .inl ⟨_, rfl, hwindows⟩
  all_goals exact .inr ⟨rfl, rfl⟩

theorem startSending_frame (c : EgressCell) (q : Egress) :
    (startSending s c q).engine = s.engine ∧ (startSending s c q).egress.windows = q.windows ∧
      (startSending s c q).paths.queueToEngine = s.paths.queueToEngine ++ startNotices c ∧
      windowOffers (startSending s c q) = windowOffers s := by
  unfold startSending admitWaiting
  dsimp only
  split
  · exact ⟨rfl, rfl, rfl, rfl⟩
  · split <;> exact ⟨rfl, rfl, rfl, rfl⟩

theorem startSending_tailLaw {c : EgressCell} {q : Egress} (h : TailLaw s)
    (hchosen : chooseCell s.egress = some (c, q)) :
    TailLaw (startSending s c q) := by
  obtain ⟨hengine, hcells, hnotices, hoffers⟩ := startSending_frame (s := s) c q
  obtain ⟨hslots, hpass⟩ := (tailLaw_iff s).mp h
  have hreleases : releaseIds (startSending s c q).paths.queueToEngine =
      releaseIds s.paths.queueToEngine ++ releaseIds (startNotices c) := by
    rw [hnotices]
    exact List.filterMap_append
  refine (tailLaw_iff _).mpr ⟨?_, ?_⟩
  · unfold Slots at hslots ⊢
    rw [hengine, hcells, hreleases]
    obtain ⟨w, rfl, hfirst⟩ | ⟨hsame, hnone⟩ := chooseCell_windows hchosen
    · rw [hfirst] at hslots
      exact hslots.start
    · rw [hsame, hnone, List.append_nil]
      exact hslots
  · unfold windowOffers at hoffers
    unfold PassLaw
    rw [hengine, hoffers]
    exact hpass

theorem takeEventOffer_tailLaw (source : EventSource) (h : TailLaw s) : TailLaw (takeEventOffer source s) := by
  unfold takeEventOffer
  cases source <;> dsimp only
  case assembler =>
    split
    · exact admitEvent_tailLaw (s := queueTakesAsm s _) _ h
    · exact h
  case triggerTable =>
    split
    · exact admitEvent_tailLaw (s := queueTakesTable s _) _ h
    · exact h
  case windowEngine =>
    split
    · rename_i e rest hoffers
      refine admitEvent_tailLaw e (h.of_frame (t := queueTakesEvent s rest) rfl rfl rfl ?_)
      unfold windowOffers
      rw [hoffers]
      rfl
    · exact h
  case agent =>
    split
    · exact admitEvent_tailLaw (s := queueTakesAgent s _) _ h
    · exact h

theorem queue_tailLaw {c : Instr} (hc : blockOf c = .queue) (h : TailLaw s) (ht : exec c s = .next t) : TailLaw t := by
  cases c <;> cases hc
  all_goals obtain rfl := Host.Outcome.next.inj ht
  case liveOffer =>
    unfold takeLiveOffer admitLive
    split
    · split <;> exact h
    · exact h
  case relayOffer =>
    unfold takeRelayOffer admitRelay
    split
    · split <;> exact h
    · exact h
  case eventOffer source => exact takeEventOffer_tailLaw source h
  case replyOffer =>
    unfold takeReplyOffer
    split
    · unfold offerReply
      split <;> exact h
    · exact h
  case transmissionStart =>
    unfold startTransmission
    split
    · split
      · exact startSending_tailLaw h ‹_›
      · exact h
    · exact h
  case transmissionCompletion =>
    unfold completeTransmission
    split <;> exact h
  case creditNotice =>
    unfold takeCreditNotice addCredits
    dsimp only
    split
    · split
      · exact h
      · refine admitEvent_tailLaw _ ?_
        exact h
    · exact h
  case settingsAdoption =>
    unfold takeSettings
    split <;> exact h

/-! ## Every step -/

theorem reset_tailLaw : TailLaw State.reset := by
  refine (tailLaw_iff _).mpr ⟨?_, rfl, rfl, nofun⟩
  exact ⟨Nat.zero_le _, .nil, .nil, nofun, .nil, nofun, nofun⟩

theorem exec_tailLaw {c : Instr} (h : TailLaw s) (ht : exec c s = .next t) : TailLaw t := by
  have hframe := exec_changesOnly ht
  cases hc : blockOf c <;> rw [hc] at hframe
  case power =>
    cases c <;> cases hc
    case powerOnReset => cases ht; exact reset_tailLaw
  case engine => exact (engine_move hc ht).tailLaw h
  case queue => exact queue_tailLaw hc h ht
  all_goals rw [hframe]; exact h

/-- Settles O34. -/
theorem tailLawKept : Obligations.TailLawKept := by
  intro s t h ht
  unfold step at ht
  split at ht
  · cases ht
    rw [elapse_spec]
    exact h
  · rename_i c rest _
    have hrest : TailLaw { s with pending := rest } := h
    exact exec_tailLaw hrest ht

end Sys2Proof.Machine
end

section
/-! The queue of commands, the clock and the receiving lanes, the power-on reset, and the frame of every command. -/

namespace Sys2Proof.Machine

variable {s t : State}

/-- Settles O1. -/
theorem stepTakesFrontCommand : Obligations.StepTakesFrontCommand := fun _ _ _ => rfl

/-! ## The local timer (R194) -/

/-- The least of a list and a bound. -/
theorem le_foldl_min (n : Nat) (l : List Nat) (a : Nat) : n ≤ l.foldl min a ↔ n ≤ a ∧ ∀ x ∈ l, n ≤ x := by
  induction l generalizing a with
  | nil => simp
  | cons x xs ih =>
    rw [List.foldl_cons, ih, List.forall_mem_cons, Nat.le_min, and_assoc]

theorem foldl_min_le (l : List Nat) (a : Nat) : l.foldl min a ≤ a ∧ ∀ x ∈ l, l.foldl min a ≤ x :=
  (le_foldl_min _ l a).mp le_rfl

/-- R194: the timer after `dt` with no expiry on the way. -/
theorem timerAfter_free {dt : Nat} (h : ∀ e ∈ runningExpiries s, s.clock.localTimer + dt ≤ e) :
    timerAfter s dt = s.clock.localTimer + dt := by
  have hle := (foldl_min_le (runningExpiries s) (s.clock.localTimer + dt)).1
  have hge := (le_foldl_min _ (runningExpiries s) (s.clock.localTimer + dt)).mpr ⟨le_rfl, h⟩
  unfold timerAfter
  omega

/-- R194: the timer stops at the earliest expiry that is still ahead. -/
theorem timerAfter_stopped {dt e : Nat} (hmem : e ∈ runningExpiries s) (hleast : ∀ x ∈ runningExpiries s, e ≤ x)
    (hahead : s.clock.localTimer ≤ e) (hreached : e < s.clock.localTimer + dt) : timerAfter s dt = e := by
  have hle := (foldl_min_le (runningExpiries s) (s.clock.localTimer + dt)).2 e hmem
  have hge := (le_foldl_min e (runningExpiries s) (s.clock.localTimer + dt)).mpr ⟨hreached.le, hleast⟩
  unfold timerAfter
  omega

/-- R194: past an expiry that has not been taken the timer stays. -/
theorem timerAfter_due {dt e : Nat} (hmem : e ∈ runningExpiries s) (hdue : e < s.clock.localTimer) :
    timerAfter s dt = s.clock.localTimer := by
  have hle := (foldl_min_le (runningExpiries s) (s.clock.localTimer + dt)).2 e hmem
  unfold timerAfter
  omega

theorem elapse_running {dt n : Nat} (hclock : s.clock.refclk = true) (htimer : timerAfter s dt = n) :
    elapse s dt = { s with clock := { s.clock with localTimer := n } } := by
  rw [elapse, if_pos hclock, htimer]

/-- Settles O2. -/
theorem localTimerStopsAtExpiry : Obligations.LocalTimerStopsAtExpiry := by
  intro s
  refine ⟨fun hempty => ?_, fun dt hlost => ?_, fun dt hclock hfree => ?_,
    fun dt e hclock hmem hleast hahead hreached => ?_,
    fun dt e hclock hmem hdue => ?_⟩
  · unfold step
    rw [hempty]
  · rw [elapse, hlost]
    rfl
  · exact elapse_running hclock (timerAfter_free hfree)
  · exact elapse_running hclock (timerAfter_stopped hmem hleast hahead hreached)
  · exact elapse_running hclock (timerAfter_due hmem hdue)

/-! ## Frame -/

theorem ChangesOnly.pending {b : Block} (h : ChangesOnly b s t) : t.pending = s.pending := by
  cases b
  case power => exact h
  all_goals
    unfold ChangesOnly at h
    rw [h]

/-- Settles O3. -/
theorem commandsChangeOnlyTheirBlock : Obligations.CommandsChangeOnlyTheirBlock :=
  fun _ _ _ h => ⟨exec_changesOnly h, (exec_changesOnly h).pending⟩

/-! ## Power-on reset -/

theorem get_replicate {α : Type} {n : Nat} (a : α) (i : Fin n) : (Vector.replicate n a).get i = a := by
  show (Vector.replicate n a)[i.val] = a
  rw [Vector.getElem_replicate]

/-- Settles O4. -/
theorem powerOnResetValues : Obligations.PowerOnResetValues := by
  have hcounters : ∀ i < 21, counterAt State.reset.counters i = some 0 := by decide
  have hline (n : Fin 8) : State.reset.lines.lines.get n = .inactive ∧ State.reset.lines.entries.get n = defaultLine ∧
      pinOf State.reset n = .low := by
    have hinactive : State.reset.lines.lines.get n = .inactive := get_replicate _ n
    have hdefault : State.reset.lines.entries.get n = defaultLine := get_replicate _ n
    refine ⟨hinactive, hdefault, ?_⟩
    rw [pinOf, hinactive, hdefault]
    rfl
  exact ⟨fun _ => rfl, rfl, rfl, rfl, fun i => get_replicate _ i, fun i => get_replicate _ i, rfl,
    fun i => get_replicate _ i, fun i => get_replicate _ i, rfl, rfl, rfl, rfl, hline, rfl, rfl, rfl, rfl, rfl, rfl,
    rfl,
    rfl, rfl, rfl, rfl, rfl, rfl, rfl, rfl, rfl, rfl, hcounters, rfl⟩

/-- Settles O60. -/
theorem resetMeetsEveryLaw : Obligations.ResetMeetsEveryLaw :=
  ⟨reset_streamLaw, reset_unitLaw, reset_heldLaw, reset_tailLaw, reset_queueLaw,
    powerOnReset_epochLaw (s := State.reset), reset_replyLaw, rfl⟩

/-! ## The receiving lanes (R187, R188) -/

theorem onLane_present {dt : Nat} {f : State → State} (hclock : s.clock.refclk = true) :
    onLane s dt f = f (elapse s dt) := if_pos hclock

theorem onLane_lost {dt : Nat} {f : State → State} (hlost : s.clock.refclk = false) : onLane s dt f = s := by
  rw [onLane, hlost]
  rfl

theorem passesCheck_iff (c : RawCell) :
    passesCheck c = true ↔ crc16 (headBytes (cellHead c)) = c.extractLsb' 0 16 := beq_iff_eq

theorem validKind_streamIn (k : Byte) : validKind .streamIn k = true ↔ k ∈ [0x01#8, 0x02#8, 0x03#8] := by
  simp [validKind, or_assoc]

theorem validKind_controlIn (k : Byte) : validKind .controlIn k = true ↔ k = 0x10#8 := beq_iff_eq

/-- R188: a lane does not accept a cell that is not whole, fails its check or has a kind not valid there. -/
theorem laneAccepts_eq_false {lane : Lane} {cell : Option RawCell}
    (h : ∀ c, cell = some c → crc16 (headBytes (cellHead c)) = c.extractLsb' 0 16 →
      validKind lane (headByte (cellHead c) 0) ≠ true) : laneAccepts lane cell = false := by
  cases cell with
  | none => rfl
  | some c =>
    rw [laneAccepts, Bool.and_eq_false_iff]
    by_cases hcheck : passesCheck c = true
    · exact .inr (by simpa using h c rfl ((passesCheck_iff c).mp hcheck))
    · exact .inl (by simpa using hcheck)

theorem laneCellDiscard_counts {dt : Nat} {lane : Lane} {cell : Option RawCell} (hclock : s.clock.refclk = true)
    (h : laneAccepts lane cell = false) :
    exec (.laneCellDiscard dt lane cell) s = .next (countBadCell (elapse s dt) lane) := by
  show Host.Outcome.next (onLane s dt (discardCell lane cell)) = _
  rw [onLane_present hclock, discardCell, h]
  rfl

theorem elapse_counters (dt : Nat) : (elapse s dt).counters = s.counters := by rw [elapse_spec]

/-- Settles O5. -/
theorem lanesDiscardAndStop : Obligations.LanesDiscardAndStop := by
  intro s
  refine ⟨rfl, rfl, fun dt cell hclock hbad => ?_, fun dt cell hclock hbad => ?_, fun hlost => ?_⟩
  · have hrejected : laneAccepts .streamIn cell = false := laneAccepts_eq_false fun c hc hcheck =>
      mt (validKind_streamIn _).mp (hbad c hc hcheck)
    rw [laneCellDiscard_counts hclock hrejected, countBadCell, elapse_counters]
  · have hrejected : laneAccepts .controlIn cell = false := laneAccepts_eq_false fun c hc hcheck =>
      mt (validKind_controlIn _).mp (hbad c hc hcheck)
    rw [laneCellDiscard_counts hclock hrejected, countBadCell, elapse_counters]
  · have hlane (dt : Nat) (f : State → State) :
        Host.Outcome.next (onLane s dt f) = (.next s : Host.Outcome State Fault Refusal) :=
      congrArg _ (onLane_lost hlost)
    refine ⟨fun dt _ _ => hlane dt _, fun dt _ _ => hlane dt _, fun dt _ _ _ => hlane dt _, fun dt _ => hlane dt _,
      fun dt _ => hlane dt _, congrArg Host.Outcome.next ?_, congrArg Host.Outcome.next ?_,
      congrArg Host.Outcome.next ?_, congrArg Host.Outcome.next ?_⟩
    · rw [completeTransmission, hlost]
      rfl
    · rw [completeRelay, hlost]
    · unfold silenceExpires
      split
      · rfl
      · simp [canExpire, hlost]
    · unfold leaseExpires
      split
      · rfl
      · simp [canExpire, hlost]

end Sys2Proof.Machine
end

section
/-! R187 to R191: the cells of the lanes. A field of a laid-out cell is read by dropping the fields below it and above
it (`extract_low`, `extract_high`, `extract_all`). -/

namespace Sys2Proof.Machine

open Stated

/-! ## Fields of a laid-out cell -/

theorem extract_low {n m : Nat} (x : BitVec n) (y : BitVec m) (k w : Nat) (h : k + w ≤ m) :
    (x ++ y).extractLsb' k w = y.extractLsb' k w := BitVec.extractLsb'_append_eq_of_add_le h

theorem extract_high {n m : Nat} (x : BitVec n) (y : BitVec m) (k w : Nat) (h : m ≤ k) :
    (x ++ y).extractLsb' k w = x.extractLsb' (k - m) w := BitVec.extractLsb'_append_eq_of_le h

theorem extract_all {n : Nat} (x : BitVec n) (k : Nat) (h : k = 0) : x.extractLsb' k n = x := by
  rw [h, BitVec.extractLsb'_eq_self]

theorem cellHead_sealCell (h : CellHead) : cellHead (sealCell h) = h := by
  rw [cellHead, sealCell, extract_high _ _ _ _ le_rfl]
  exact extract_all h _ rfl

/-- R187: a sealed cell passes its check. -/
theorem passesCheck_sealCell (h : CellHead) : passesCheck (sealCell h) = true := by
  rw [passesCheck, cellHead_sealCell, beq_iff_eq, sealCell, extract_low _ _ _ _ le_rfl, extract_all _ _ rfl]

/-! ## The received cells -/

theorem roundHead_fields (n : Round) (declared : ChannelMask) (ignored : BitVec 120) :
    headByte (roundHead n declared ignored) 0 = 0x01#8 ∧ (roundHead n declared ignored).extractLsb' 136 32 = n ∧
      (roundHead n declared ignored).extractLsb' 120 16 = declared := by
  unfold headByte roundHead
  refine ⟨?_, ?_, ?_⟩ <;> simp (disch := decide) only [extract_low, extract_high, extract_all]

theorem sampleHead_fields (channel low : Byte) (value : Sample) (ignored : BitVec 128) :
    headByte (sampleHead channel low value ignored) 0 = 0x02#8 ∧
      headByte (sampleHead channel low value ignored) 1 = channel ∧
      headByte (sampleHead channel low value ignored) 2 = low ∧
      (sampleHead channel low value ignored).extractLsb' 128 24 = value := by
  unfold headByte sampleHead
  refine ⟨?_, ?_, ?_, ?_⟩ <;> simp (disch := decide) only [extract_low, extract_high, extract_all]

theorem feReplyHead_fields (body : RelayBytes) (ignored : BitVec 16) :
    headByte (feReplyHead body ignored) 0 = 0x03#8 ∧ (feReplyHead body ignored).extractLsb' 16 152 = body := by
  unfold headByte feReplyHead
  refine ⟨?_, ?_⟩ <;> simp (disch := decide) only [extract_low, extract_high, extract_all]

theorem requestHead_kind (q : Request) : headByte (requestHead q) 0 = 0x10#8 := by
  unfold headByte requestHead
  simp (disch := decide) only [extract_high, extract_all]

theorem requestOf_requestHead (q : Request) : requestOf (requestHead q) = q := by
  unfold requestOf headByte requestHead
  simp (disch := decide) only [extract_low, extract_high, extract_all]

/-- R188: a sealed cell of a valid kind is accepted. -/
theorem laneAccepts_sealCell {lane : Lane} {h : CellHead} (hkind : validKind lane (headByte h 0) = true) :
    laneAccepts lane (some (sealCell h)) = true := by
  rw [laneAccepts, passesCheck_sealCell, cellHead_sealCell, hkind]
  rfl

/-- R188: a cell that the lane does not accept is discarded. -/
theorem laneCommand_discard {dt : Nat} {lane : Lane} {c : RawCell} (h : laneAccepts lane (some c) = false) :
    laneCommand dt lane (some c) = .laneCellDiscard dt lane (some c) := by
  simp [laneCommand, h]

theorem laneCommand_streamIn {dt : Nat} {h : CellHead} (hkind : validKind .streamIn (headByte h 0) = true) :
    laneCommand dt .streamIn (some (sealCell h)) =
      if headByte h 0 = 0x01#8 then .roundCell dt (h.extractLsb' 136 32) (h.extractLsb' 120 16)
      else if headByte h 0 = 0x02#8 then .sampleCell dt (headByte h 1) (headByte h 2) (h.extractLsb' 128 24)
      else .feReplyRelay dt (h.extractLsb' 16 152) := by
  simp only [laneCommand, laneAccepts_sealCell hkind, cellHead_sealCell, if_true]

/-- Settles O6. -/
theorem receivedCellsDecode : Obligations.ReceivedCellsDecode := by
  refine ⟨fun dt n declared ignored => ?_, fun dt channel low value ignored => ?_, fun dt body ignored => ?_,
    fun dt q => ?_, fun dt lane => ?_, fun dt lane c hcheck => ?_, fun dt c hkind => ?_, fun dt c hkind => ?_⟩
  · obtain ⟨hkind, hround, hdeclared⟩ := roundHead_fields n declared ignored
    rw [laneCommand_streamIn (by rw [hkind]; rfl), hround, hdeclared, hkind]
    rfl
  · obtain ⟨hkind, hchannel, hlow, hvalue⟩ := sampleHead_fields channel low value ignored
    rw [laneCommand_streamIn (by rw [hkind]; rfl), hchannel, hlow, hvalue, hkind]
    rfl
  · obtain ⟨hkind, hbody⟩ := feReplyHead_fields body ignored
    rw [laneCommand_streamIn (by rw [hkind]; rfl), hbody, hkind]
    rfl
  · have haccepts : laneAccepts .controlIn (some (sealCell (requestHead q))) = true :=
      laneAccepts_sealCell (by rw [requestHead_kind]; rfl)
    simp only [laneCommand, haccepts, cellHead_sealCell, requestOf_requestHead, if_true]
  · cases lane <;> rfl
  · exact laneCommand_discard (by rw [laneAccepts, hcheck]; rfl)
  · exact laneCommand_discard (laneAccepts_eq_false fun _ hc _ => by
      obtain rfl := Option.some.inj hc
      exact mt (validKind_streamIn _).mp hkind)
  · exact laneCommand_discard (laneAccepts_eq_false fun _ hc _ => by
      obtain rfl := Option.some.inj hc
      exact mt (validKind_controlIn _).mp hkind)

/-! ## The transmitted cells -/

theorem bitsTo_sealCell (h : CellHead) (last w : Nat) :
    bitsTo (sealCell h) last w = h.extractLsb' (8 * (21 - last)) w := by rw [bitsTo, cellHead_sealCell]

/-- R142: bytes 1 and 2 of every cell are its sequence number. -/
theorem egressHead_seq (seq : BitVec 16) (c : EgressCell) : (egressHead seq c).extractLsb' 152 16 = seq := by
  rcases c with c | c | (c | c | c) | c | c <;>
    simp (disch := decide) only [egressHead, replyHead, eventHead, winHeadHead, winSampleHead, winTailHead, relayHead,
      liveHead, extract_low, extract_high, extract_all]

theorem eventByte_eq (c : EventCode) : BitVec.ofNat 8 (eventCode c) = eventByte c := by cases c <;> rfl

theorem resultByte_eq (r : Result) : BitVec.ofNat 8 (resultCode r) = resultByte r := by cases r <;> rfl

theorem windowFlagsByte_bits (f : WinFlags) : ∀ n < 8, (flagBits f)[n]? = some ((windowFlagsByte f).getLsbD n) := by
  obtain ⟨shortPre, extended, truncated, gap, streamLost, aborted⟩ := f
  revert shortPre extended truncated gap streamLost aborted
  decide

theorem eventFlagsByte_bits (e : EventCell) :
    (eventFlagsByte e).getLsbD 0 = e.round.isSome ∧ (eventFlagsByte e).getLsbD 1 = e.forced ∧
      (eventFlagsByte e).extractLsb' 2 6 = 0 := by
  unfold eventFlagsByte
  cases e.round.isSome <;> cases e.forced <;> decide

/-- R176: the low twenty bytes of a REQUEST's head are bytes 2 to 21. -/
theorem requestHead_command (q : Request) : (requestHead q).extractLsb' 0 160 = commandBytes q := by
  refine BitVec.eq_of_getLsbD_eq fun i hi => ?_
  rw [BitVec.getLsbD_extractLsb']
  simp only [requestHead, commandBytes, BitVec.getLsbD_append, hi, decide_true, Bool.true_and, Nat.zero_add]
  have htag : i - 80 - 32 - 8 - 8 - 8 - 8 - 8 < 8 := by omega
  simp [htag]
  
/-- Settles O7. -/
theorem transmittedCellsAreSealed : Obligations.TransmittedCellsAreSealed := by
  refine ⟨fun x => ?_, fun seq c => ?_, fun seq c => ?_, fun seq c => ?_, fun seq c => ?_, fun seq c => ?_,
    fun seq c => ?_, fun seq body => ?_, fun q => ?_⟩
  · exact ⟨passesCheck_sealCell _, (bitsTo_sealCell _ _ _).trans (egressHead_seq x.seq x.cell)⟩
  · simp (disch := decide) only [egressCell, bitsTo_sealCell, egressHead, liveHead, indexByte, extract_low,
      extract_high, extract_all, BitVec.ofNat_eq_ofNat, and_self]
  · simp (disch := decide) only [egressCell, bitsTo_sealCell, egressHead, winHeadHead, indexByte, extract_low,
      extract_high, extract_all, BitVec.ofNat_eq_ofNat, and_self]
  · have hcomplete : BitVec.ofNat 8 (boolCode c.complete) = if c.complete then 1#8 else 0#8 := by
      cases c.complete <;> rfl
    simp (disch := decide) only [egressCell, bitsTo_sealCell, egressHead, winSampleHead, indexByte, hcomplete,
      extract_low, extract_high, extract_all, BitVec.ofNat_eq_ofNat, and_self]
  · have hflags := windowFlagsByte_bits c.flags
    simp (disch := decide) only [egressCell, bitsTo_sealCell, egressHead, winTailHead, extract_low, extract_high,
      extract_all, BitVec.ofNat_eq_ofNat, true_and, and_true]
    exact hflags
  · have hround : c.round.getD 0 = match c.round with
        | some r => r
        | none => 0 := by
      cases c.round <;> rfl
    have hflags := eventFlagsByte_bits c
    simp (disch := decide) only [egressCell, bitsTo_sealCell, egressHead, eventHead, eventByte_eq, extract_low,
      extract_high, extract_all, BitVec.ofNat_eq_ofNat, true_and, and_true]
    exact ⟨hround, hflags⟩
  · simp (disch := decide) only [egressCell, bitsTo_sealCell, egressHead, replyHead, resultByte_eq, extract_low,
      extract_high, extract_all, BitVec.ofNat_eq_ofNat, and_self]
  · simp (disch := decide) only [egressCell, bitsTo_sealCell, egressHead, relayHead, extract_low, extract_high,
      extract_all, and_self]
  · refine ⟨passesCheck_sealCell _, ?_⟩
    simp (disch := decide) only [feCommandCell, bitsTo_sealCell, feCommandHead, extract_low, extract_high, extract_all,
      BitVec.ofNat_eq_ofNat, true_and]
    exact (requestHead_command q).symm

end Sys2Proof.Machine
end

section
/-! R6 to R22: the Round Assembler. Each of its operations is the state change that the statements write out
(`closeRound_eq`, `acceptRound_eq`, `restartRound_eq`). -/

namespace Sys2Proof.Machine

open Stated

variable {s t : State}

/-! ## The operations -/

theorem insertMark_eq (s : State) (e : Epoch) : insertMark s e = markInserted s e := by
  have hlast : lastRound s = lastRoundOf s.asm.stream := by
    unfold lastRound lastRoundOf
    cases s.asm.stream <;> rfl
  unfold insertMark markInserted
  rw [hlast]
  rfl

/-- R6: the declared channels that were not received. -/
theorem missingCount_eq (declared received : ChannelMask) :
    missingCount declared received =
      ((List.finRange 16).filter fun i => declared.getLsbD i.val && !received.getLsbD i.val).length := by
  unfold missingCount channelsOf
  congr 2
  funext i
  simp [i.isLt]

theorem closeRound_eq (s : State) (a : InAssembly) (complete : Bool) :
    closeRound s a complete = roundClosed s a complete := by
  unfold closeRound roundClosed insertPending
  rw [missingCount_eq]
  dsimp only [toBothPaths]
  cases s.asm.pendingMark with
  | none => rfl
  | some e => exact insertMark_eq _ e

theorem acceptRound_eq (s : State) (n : Round) (declared : ChannelMask) (gap : Nat) (spanStart : Bool) :
    acceptRound s n declared gap spanStart = roundOpened s n declared gap spanStart := by
  unfold acceptRound roundOpened
  simp only [closeRound_eq]
  rfl

theorem restartRound_eq (s : State) (old n : Round) (declared : ChannelMask) :
    restartRound s old n declared = roundOpened (restartAnnounced s old n) n declared 0 true :=
  acceptRound_eq _ _ _ _ _

theorem forwardRound_next (s : State) (last n : Round) (declared : ChannelMask) :
    forwardRound s last n declared 1 = roundOpened s n declared 0 false := acceptRound_eq _ _ _ _ _

theorem forwardRound_gap (s : State) (last n : Round) (declared : ChannelMask) {d : Nat} (hd : d ≠ 1) :
    forwardRound s last n declared d = roundOpened
      (gapCounted s (d - 1) (streamEvent .roundGap n (last + 1) (BitVec.ofNat 32 (d - 1)))) n declared (d - 1) false :=
  (if_neg hd).trans (acceptRound_eq _ _ _ _ _)

theorem resumeRound_eq (s : State) (n : Round) (declared : ChannelMask) (d : Nat) :
    resumeRound s n declared d = roundOpened
      (gapCounted s (d - 1) (streamEvent .streamResumed n n (BitVec.ofNat 32 (d - 1)))) n declared (d - 1) false :=
  acceptRound_eq _ _ _ _ _

/-! ## ROUND cells -/

theorem elapse_asm (dt : Nat) : (elapse s dt).asm = s.asm := by rw [elapse_spec]

theorem elapse_refclk (dt : Nat) : (elapse s dt).clock.refclk = s.clock.refclk := by rw [elapse_spec]

theorem elapse_zero (s : State) : elapse s 0 = s := by
  have hle := (foldl_min_le (runningExpiries s) s.clock.localTimer).1
  have htimer : timerAfter s 0 = s.clock.localTimer := by
    unfold timerAfter
    rw [Nat.add_zero]
    omega
  rw [elapse_spec, htimer, ite_self]

theorem roundCell_exec (dt : Nat) (n : Round) (declared : ChannelMask) (hclock : s.clock.refclk = true) :
    exec (.roundCell dt n declared) s = .next (judgeRound (closeIncomplete (elapse s dt)) n declared) :=
  congrArg Host.Outcome.next (onLane_present hclock)

/-- R9 to R13 with no round in assembly. -/
theorem roundCell_judged (dt : Nat) (n : Round) (declared : ChannelMask) (hclock : s.clock.refclk = true)
    (hnone : s.asm.assembly = none) :
    exec (.roundCell dt n declared) s = .next (judgeRound (elapse s dt) n declared) := by
  rw [roundCell_exec dt n declared hclock, closeIncomplete, elapse_asm, hnone]

theorem roundClosed_refclk (a : InAssembly) (complete : Bool) :
    (roundClosed s a complete).clock.refclk = s.clock.refclk := by
  unfold roundClosed
  dsimp only
  split <;> rfl

theorem roundClosed_assembly (a : InAssembly) (complete : Bool) : (roundClosed s a complete).asm.assembly = none := by
  unfold roundClosed
  dsimp only
  split <;> rfl

/-- Settles O8. -/
theorem supersessionClosesRoundFirst : Obligations.SupersessionClosesRoundFirst := by
  intro s dt n declared a hclock ha
  have hclosed : (roundClosed (elapse s dt) a false).clock.refclk = true := by
    rw [roundClosed_refclk, elapse_refclk, hclock]
  rw [roundCell_exec dt n declared hclock, roundCell_judged 0 n declared hclosed (roundClosed_assembly a false),
    elapse_zero, closeIncomplete, elapse_asm, ha]
  dsimp only
  rw [closeRound_eq]

/-- R1: a round is after another at a forward distance from 1 to 2^31 - 1. -/
theorem isAfter_of_distance {a b : Round} (h1 : 1 ≤ distance a b) (h2 : distance a b ≤ 2147483647) :
    isAfter b a = true := isAfter_iff.mpr ⟨h1, h2⟩

theorem not_isAfter_of_distance {a b : Round} (h : distance a b = 0 ∨ 2147483648 ≤ distance a b) :
    isAfter b a = false := by
  rw [Bool.eq_false_iff, Ne, isAfter_iff]
  omega

/-- Settles O9. -/
theorem forwardRoundAccepted : Obligations.ForwardRoundAccepted := by
  intro s dt n declared hclock hnone
  dsimp only
  rw [roundCell_judged dt n declared hclock hnone, judgeRound, elapse_asm]
  refine ⟨fun hdown => ?_, fun last hrunning hd => ?_, fun last hrunning hd hfar => ?_, fun last hlost hd hfar => ?_⟩
  · rw [hdown]
    exact congrArg _ (acceptRound_eq _ _ _ _ _)
  · rw [hrunning]
    dsimp only
    rw [if_pos (isAfter_of_distance hd.ge (by omega)), hd, forwardRound_next]
  · rw [hrunning]
    dsimp only
    rw [if_pos (isAfter_of_distance (by omega) hfar), forwardRound_gap _ _ _ _ (by omega)]
  · rw [hlost]
    dsimp only
    rw [if_pos (isAfter_of_distance hd hfar), resumeRound_eq]

/-- Settles O10. -/
theorem backwardRoundRefusedOrRestarts : Obligations.BackwardRoundRefusedOrRestarts := by
  intro s dt n last declared hclock hnone hback
  have hnot := not_isAfter_of_distance hback
  dsimp only
  rw [roundCell_judged dt n declared hclock hnone, judgeRound, elapse_asm]
  refine ⟨fun hrunning hfew => ?_, fun hrunning hmany => ?_, fun hlost => ?_⟩
  · rw [hrunning]
    dsimp only
    rw [hnot, if_neg nofun, if_pos (by omega), refuseRound, elapse_asm, elapse_counters, ← hrunning]
  · rw [hrunning]
    dsimp only
    rw [hnot, if_neg nofun, if_neg (by omega), restartRound_eq]
  · rw [hlost]
    dsimp only
    rw [hnot, if_neg nofun, restartRound_eq]

/-! ## SAMPLE and FE_REPLY cells -/

theorem sampleCell_exec (dt : Nat) (channel low : Byte) (value : Sample) (hclock : s.clock.refclk = true) :
    exec (.sampleCell dt channel low value) s = .next (sampleTaken (elapse s dt) channel low value) :=
  congrArg Host.Outcome.next (onLane_present hclock)

theorem straySample_eq (dt : Nat) : straySample (elapse s dt) = { elapse s dt with
    counters := { s.counters with straySamples := raise s.counters.straySamples 1 } } := by
  rw [straySample, elapse_counters]

theorem malformedSample_eq (dt : Nat) : malformedSample (elapse s dt) = { elapse s dt with
    counters := { s.counters with malformedStreamCells := raise s.counters.malformedStreamCells 1 } } := by
  rw [malformedSample, elapse_counters]

theorem indexOf_of_lt {n k : Nat} (h : k < n) : indexOf n k = some ⟨k, h⟩ := dif_pos h

theorem indexOf_of_le {n k : Nat} (h : n ≤ k) : indexOf n k = none := dif_neg (Nat.not_lt.mpr h)

theorem sampleTaken_stray {channel : Byte} (low : Byte) (value : Sample) (hnone : s.asm.assembly = none) :
    sampleTaken s channel low value = straySample s := by rw [sampleTaken, hnone]

/-- R14: the sample matches the round in assembly. -/
theorem sampleTaken_matching {a : InAssembly} {channel low : Byte} (value : Sample) (ch : Fin 16)
    (ha : s.asm.assembly = some a) (hch : channel.toNat = ch.val)
    (hmatch : (hasChannel a.declared ch && !hasChannel a.received ch && low == a.round.extractLsb' 0 8) = true) :
    sampleTaken s channel low value = takeSample s a ch value := by
  have hindex : indexOf 16 channel.toNat = some ch := by rw [hch, indexOf_of_lt ch.isLt]
  rw [sampleTaken, ha]
  dsimp only
  rw [hindex]
  dsimp only
  rw [if_pos hmatch]

/-- R14: the sample does not match the round in assembly. -/
theorem sampleTaken_malformed {a : InAssembly} {channel low : Byte} (value : Sample) (ha : s.asm.assembly = some a)
    (hbad : 15 < channel.toNat ∨ a.declared.getLsbD channel.toNat = false ∨ a.received.getLsbD channel.toNat = true ∨
      low ≠ a.round.extractLsb' 0 8) : sampleTaken s channel low value = malformedSample s := by
  rw [sampleTaken, ha]
  dsimp only
  by_cases hch : channel.toNat < 16
  · rw [indexOf_of_lt hch]
    dsimp only
    refine if_neg fun hmatch => ?_
    simp only [hasChannel, Bool.and_eq_true, Bool.not_eq_true', beq_iff_eq] at hmatch
    obtain ⟨⟨hdeclared, hreceived⟩, hlow⟩ := hmatch
    obtain h | h | h | h := hbad
    · omega
    · exact absurd (h.symm.trans hdeclared) nofun
    · exact absurd (h.symm.trans hreceived) nofun
    · exact h hlow
  · rw [indexOf_of_le (Nat.not_lt.mp hch)]

theorem withSample_eq (a : InAssembly) (ch : Fin 16) (value : Sample) :
    withSample s a ch value = { a with
      received := a.received ||| BitVec.twoPow 16 ch.val
      kept := if s.asm.modes.get ch = .off then a.kept else a.kept.set ch.val (some value) ch.isLt } := by
  have hbit : BitVec.ofNat 16 (2 ^ ch.val) = BitVec.twoPow 16 ch.val :=
    BitVec.eq_of_toNat_eq (by rw [BitVec.toNat_ofNat, BitVec.toNat_twoPow])
  unfold withSample
  rw [hbit]
  cases s.asm.modes.get ch <;> rfl

theorem sampleOffered_eq (a : InAssembly) (ch : Fin 16) (value : Sample) :
    sampleOffered s a ch value =
      if s.asm.modes.get ch = .pass then
        offered { s with asm := { s.asm with assembly := some (withSample s a ch value) } }
          (.live { channel := ch, round := a.round, value := value })
      else { s with asm := { s.asm with assembly := some (withSample s a ch value) } } := by
  unfold sampleOffered
  cases s.asm.modes.get ch <;> rfl

/-- R15: every declared channel has been received. -/
theorem covered_iff (declared received : ChannelMask) :
    declared &&& ~~~received = 0 ↔ ∀ i : Fin 16, declared.getLsbD i.val = true → received.getLsbD i.val = true := by
  constructor
  · intro h i hi
    have hbit := congrArg (fun m : ChannelMask => m.getLsbD i.val) h
    simpa [BitVec.getLsbD_and, BitVec.getLsbD_not, i.isLt, hi] using hbit
  · intro h
    refine BitVec.eq_of_getLsbD_eq fun i hi => ?_
    have hbit := h ⟨i, hi⟩
    simp only [BitVec.getLsbD_and, BitVec.getLsbD_not, hi, decide_true, Bool.true_and, BitVec.ofNat_eq_ofNat,
      BitVec.getLsbD_zero]
    cases hd : declared.getLsbD i
    · rfl
    · rw [hbit hd]
      rfl

/-- Settles O11. -/
theorem sampleTakenOrDiscarded : Obligations.SampleTakenOrDiscarded := by
  refine ⟨fun s dt channel low value hclock => ⟨fun hnone => ?_, fun a ha hbad => ?_⟩,
    fun s dt channel low value a ch hclock ha hch hdeclared hreceived hlow => ?_, fun s dt body hclock => ?_⟩
  · rw [sampleCell_exec dt channel low value hclock,
      sampleTaken_stray low value ((congrArg _ (elapse_asm dt)).trans hnone),
      straySample_eq]
  · rw [sampleCell_exec dt channel low value hclock,
      sampleTaken_malformed value ((congrArg _ (elapse_asm dt)).trans ha) hbad, malformedSample_eq]
  · have ha' : (elapse s dt).asm.assembly = some a := (congrArg _ (elapse_asm dt)).trans ha
    have hmatch : (hasChannel a.declared ch && !hasChannel a.received ch && low == a.round.extractLsb' 0 8) = true := by
      rw [hasChannel, hasChannel, hdeclared, hreceived, hlow]
      exact beq_self_eq_true _
    rw [sampleCell_exec dt channel low value hclock, sampleTaken_matching value ch ha' hch hmatch, takeSample_eq]
    simp only [withSample_eq, sampleOffered_eq, elapse_asm, covered_iff, closeRound_eq]
  · exact congrArg Host.Outcome.next (onLane_present hclock)

/-! ## Silence and the starts -/

theorem closeIncomplete_eq (s : State) : closeIncomplete s = match s.asm.assembly with
    | none => s
    | some a => roundClosed s a false := by
  unfold closeIncomplete
  cases s.asm.assembly with
  | none => rfl
  | some a => exact closeRound_eq s a false

theorem canExpire_iff {e : Nat} : canExpire s e = true ↔
    s.clock.refclk = true ∧ (e ≤ s.clock.localTimer ∨ ∀ x ∈ runningExpiries s, e ≤ x) := by
  simp [canExpire]

theorem silenceExpires_due {e : Nat} (hexpiry : s.asm.silenceExpiry = some e) (hdue : canExpire s e = true) :
    silenceExpires s = streamFallsSilent (reach s e) := by
  rw [silenceExpires, hexpiry]
  exact if_pos hdue

theorem streamFallsSilent_running {last : Round} (hrunning : s.asm.stream = .running last) :
    streamFallsSilent s = asmEvent (toBothPaths { closeIncomplete s with
      asm := { (closeIncomplete s).asm with stream := .lost last, silenceExpiry := none } } .lost)
      .streamLost last last 0 := by
  rw [streamFallsSilent, hrunning]

/-- Settles O12. -/
theorem silenceLosesStream : Obligations.SilenceLosesStream := by
  intro s
  refine ⟨fun e last hexpiry hrunning hclock hdue => congrArg Host.Outcome.next ?_,
    fun hstopped => congrArg Host.Outcome.next ?_, fun e hexpiry hahead hearlier => congrArg Host.Outcome.next ?_⟩
  · rw [silenceExpires_due hexpiry (canExpire_iff.mpr ⟨hclock, hdue⟩),
      streamFallsSilent_running (s := reach s e) hrunning, closeIncomplete_eq]
    rfl
  · rw [silenceExpires, hstopped]
  · rw [silenceExpires, hexpiry]
    refine if_neg fun hdue => ?_
    obtain ⟨-, hreached | hleast⟩ := canExpire_iff.mp hdue
    · omega
    · obtain ⟨x, hx, hlt⟩ := hearlier
      exact absurd (hleast x hx) (Nat.not_le.mpr hlt)

/-- Settles O13. -/
theorem assemblerTakesStarts : Obligations.AssemblerTakesStarts := by
  intro s
  refine ⟨fun e rest hfront => ⟨fun hnone => congrArg Host.Outcome.next ?_, fun hsome => congrArg Host.Outcome.next ?_⟩,
    fun rest hfront => congrArg Host.Outcome.next ?_⟩
  · rw [takeCommitStart, hfront]
    dsimp only
    rw [hnone]
    exact insertMark_eq _ e
  · obtain ⟨a, ha⟩ := Option.ne_none_iff_exists'.mp hsome
    rw [takeCommitStart, hfront]
    dsimp only
    rw [ha]
  · rw [takeNodeResetStart, hfront]
    rfl

end Sys2Proof.Machine
end

section
/-! R24 to R37: the History Store. -/

namespace Sys2Proof.Machine

open Stated

variable {s t : State}

/-! ## Appending (R26 to R29) -/

/-- A list is cut where a test first fails. -/
theorem takeWhile_eq_take {α : Type} (p : α → Bool) (l : List α) :
    l.takeWhile p = l.take (l.takeWhile p).length ∧ l.dropWhile p = l.drop (l.takeWhile p).length := by
  have htake := List.take_left (l₁ := l.takeWhile p) (l₂ := l.dropWhile p)
  have hdrop := List.drop_left (l₁ := l.takeWhile p) (l₂ := l.dropWhile p)
  rw [List.takeWhile_append_dropWhile] at htake hdrop
  exact ⟨htake.symm, hdrop.symm⟩

/-- R27, R28: how many records leave by reach, and how many in all. -/
def reachCount (ring : List Record) (n : Round) : Nat := (reachRemoved ring n).length

def goneCount (ring : List Record) (n : Round) : Nat :=
  if 512 ≤ ring.length - reachCount ring n then reachCount ring n + 1 else reachCount ring n

theorem reachRemoved_eq (ring : List Record) (n : Round) : reachRemoved ring n = ring.take (reachCount ring n) :=
  (takeWhile_eq_take _ ring).1

theorem reachKept_eq (ring : List Record) (n : Round) : reachKept ring n = ring.drop (reachCount ring n) :=
  (takeWhile_eq_take _ ring).2

theorem capacityKept_reachKept (ring : List Record) (n : Round) :
    capacityKept (reachKept ring n) = ring.drop (goneCount ring n) := by
  unfold capacityKept goneCount
  rw [reachKept_eq, List.length_drop]
  split
  · rw [if_pos ‹_›, List.drop_drop]
  · rw [if_neg ‹_›]

theorem removed_eq (ring : List Record) (n : Round) :
    reachRemoved ring n ++ capacityRemoved (reachKept ring n) = ring.take (goneCount ring n) := by
  unfold capacityRemoved goneCount
  rw [reachKept_eq, List.length_drop, reachRemoved_eq]
  split
  · rw [if_pos ‹_›, List.take_add]
  · rw [if_neg ‹_›, List.append_nil]

/-- R27: the reach step removes the records that the round is not after, and stops at the first that it is after. -/
theorem reachCount_spec (ring : List Record) (n : Round) :
    (∀ y ∈ ring.take (reachCount ring n), isAfter n y.round = false) ∧
      (∀ y, ring[reachCount ring n]? = some y → isAfter n y.round = true) ∧ reachCount ring n ≤ ring.length := by
  refine ⟨fun y hy => ?_, fun y hy => ?_, (List.takeWhile_sublist _).length_le⟩
  · rw [← reachRemoved_eq] at hy
    simpa using List.mem_takeWhile_imp hy
  · have hhead := List.head?_dropWhile_not (fun x : Record => !isAfter n x.round) ring
    rw [← List.head?_drop, ← reachKept_eq] at hy
    unfold reachKept at hy
    rw [hy] at hhead
    simpa using hhead

/-- Settles O14. -/
theorem appendRemovesThenStores : Obligations.AppendRemovesThenStores := by
  intro s x rest hfront
  have hexec : exec .recordAppend s = .next (appendRecord (storeTakes s rest) x) := by
    show Host.Outcome.next (takeRecordAppend s) = _
    rw [takeRecordAppend, hfront]
  refine ⟨fun hspan => ?_, fun hspan => ?_⟩
  · rw [hexec, appendRecord, if_pos hspan]
    rfl
  · obtain ⟨hbefore, hat, hle⟩ := reachCount_spec s.store.ring x.round
    refine ⟨reachCount s.store.ring x.round, goneCount s.store.ring x.round, hbefore, hat, hle, rfl, ?_⟩
    rw [hexec, appendRecord, hspan, if_neg nofun]
    simp only [storeTakes, storeNotices, overwrittenNotices, capacityKept_reachKept, removed_eq, List.append_assoc]

/-- Settles O15. -/
theorem storeTakesNotices : Obligations.StoreTakesNotices := by
  intro s rest
  refine ⟨fun hfront => congrArg Host.Outcome.next ?_, fun hfront => congrArg Host.Outcome.next ?_,
    fun e hfront => congrArg Host.Outcome.next ?_, fun older newest hfront hring => ?_, fun hfront hring => ?_⟩
  · rw [takeHistoryRestart, hfront]
    rfl
  · rw [takeHistoryNodeReset, hfront]
    rfl
  · rw [takeHistoryMark, hfront]
    rfl
  · have hnewest : newestRound s.store = some newest.round := by rw [newestRound, hring, List.getLast?_concat]; rfl
    show execHistoryLostNotice s = _
    rw [execHistoryLostNotice, hfront]
    dsimp only
    rw [hnewest]
    rfl
  · have hnewest : newestRound s.store = none := by rw [newestRound, hring]; rfl
    show execHistoryLostNotice s = _
    rw [execHistoryLostNotice, hfront]
    dsimp only
    rw [hnewest]

/-! ## Looking a round up (R34) -/

/-- R24: the rounds held lie within the distance from the oldest to the newest, less than half the circle. -/
theorem ring_bounds {ring : List Record} (h : RingOrdered ring) {o n : Record} (ho : ring.head? = some o)
    (hn : ring.getLast? = some n) :
    distance o.round n.round ≤ 2147483647 ∧ ∀ x ∈ ring, distance o.round x.round ≤ distance o.round n.round := by
  have hbound {x : Record} (hx : x ∈ ring) : distance o.round x.round ≤ 2147483647 := by
    obtain rfl | hafter := h.first ho x hx
    · simp
    · exact (isAfter_iff.mp hafter).2
  refine ⟨hbound (List.mem_of_getLast? hn), fun x hx => ?_⟩
  obtain rfl | hafter := h.last hn x hx
  · exact le_rfl
  · have hfirst := hbound hx
    obtain ⟨-, hlast⟩ := isAfter_iff.mp hafter
    have := distance_add (a := o.round) (b := x.round) (c := n.round) (by omega)
    omega

theorem distance_inj {o a b : Round} (h : distance o a = distance o b) : a = b := by
  have hsub := distance_sub (a := o) (b := a) (c := b) h.le
  exact distance_eq_zero.mp (by omega)

theorem heldRecord_isSome (h : Store) (r : Round) : (heldRecord h r).isSome = true ↔ ∃ x ∈ h.ring, x.round = r := by
  simp [heldRecord, List.find?_isSome]

theorem classify_empty {h : Store} (hring : h.ring = []) (r : Round) : classify h r = .empty := by
  simp [classify, oldestRound, hring]

theorem classify_eq {h : Store} {o n : Record} (ho : h.ring.head? = some o) (hn : h.ring.getLast? = some n)
    (r : Round) : classify h r =
      if (heldRecord h r).isSome then .held
      else if distance o.round r ≤ distance o.round n.round then .gap
      else if isAfter r n.round then .ahead
      else .behind := by
  simp [classify, oldestRound, newestRound, ho, hn]

/-- R34: held, gap, ahead and behind, by the distances from the oldest round. -/
theorem classify_cases {h : Store} (horder : RingOrdered h.ring) {o n : Record} (ho : h.ring.head? = some o)
    (hn : h.ring.getLast? = some n) (r : Round) :
    ((∃ x ∈ h.ring, x.round = r) ∧ classify h r = .held ∧ distance o.round r ≤ distance o.round n.round) ∨
    ((∀ x ∈ h.ring, x.round ≠ r) ∧ classify h r = .gap ∧ distance o.round r ≤ distance o.round n.round) ∨
    (isAfter r n.round = true ∧ classify h r = .ahead ∧ distance o.round n.round < distance o.round r) ∨
    (isAfter r n.round = false ∧ classify h r = .behind ∧ distance o.round n.round < distance o.round r) := by
  obtain ⟨-, hbound⟩ := ring_bounds horder ho hn
  rw [classify_eq ho hn]
  by_cases hheld : (heldRecord h r).isSome = true
  · obtain ⟨x, hx, rfl⟩ := (heldRecord_isSome h r).mp hheld
    exact .inl ⟨⟨x, hx, rfl⟩, if_pos hheld, hbound x hx⟩
  · rw [if_neg hheld]
    have hnone : ∀ x ∈ h.ring, x.round ≠ r := fun x hx hxr => hheld ((heldRecord_isSome h r).mpr ⟨x, hx, hxr⟩)
    by_cases hgap : distance o.round r ≤ distance o.round n.round
    · exact .inr (.inl ⟨hnone, if_pos hgap, hgap⟩)
    · rw [if_neg hgap]
      cases hafter : isAfter r n.round
      · exact .inr (.inr (.inr ⟨rfl, rfl, Nat.not_le.mp hgap⟩))
      · exact .inr (.inr (.inl ⟨rfl, rfl, Nat.not_le.mp hgap⟩))

/-- R34: a gap round lies strictly between the oldest and the newest round. -/
theorem gap_between {ring : List Record} (horder : RingOrdered ring) {o n : Record} (ho : ring.head? = some o)
    (hn : ring.getLast? = some n) {r : Round} (hnone : ∀ x ∈ ring, x.round ≠ r)
    (hwithin : distance o.round r ≤ distance o.round n.round) :
    isAfter r o.round = true ∧ isAfter n.round r = true ∧ distance o.round r < distance o.round n.round := by
  obtain ⟨hhalf, -⟩ := ring_bounds horder ho hn
  have hro : distance o.round r ≠ 0 := fun h0 => hnone o (List.mem_of_head? ho) (distance_eq_zero.mp h0)
  have hrn : distance o.round r ≠ distance o.round n.round :=
    fun heq => hnone n (List.mem_of_getLast? hn) (distance_inj heq).symm
  have hsub := distance_sub hwithin
  rw [isAfter_iff, isAfter_iff]
  omega

theorem RingOrdered.nodup {ring : List Record} (h : RingOrdered ring) : (ring.map Record.round).Nodup := by
  refine List.pairwise_map.mpr (h.imp fun {a b} hab heq => ?_)
  rw [isAfter_iff, heq, distance_self] at hab
  omega

/-- R24: a round has one record. -/
theorem heldRecord_eq {h : Store} (horder : RingOrdered h.ring) {x : Record} (hx : x ∈ h.ring) :
    heldRecord h x.round = some x := by
  obtain ⟨y, hy⟩ := Option.isSome_iff_exists.mp ((heldRecord_isSome h x.round).mpr ⟨x, hx, rfl⟩)
  have hmem := List.mem_of_find?_eq_some hy
  have hround : y.round = x.round := by simpa using List.find?_some hy
  rw [hy, List.inj_on_of_nodup_map horder.nodup hmem hx hround]

theorem exists_ends {ring : List Record} {x : Record} (hx : x ∈ ring) :
    ∃ o n, ring.head? = some o ∧ ring.getLast? = some n := by
  have hne : ring ≠ [] := List.ne_nil_of_mem hx
  exact ⟨ring.head hne, ring.getLast hne, List.head?_eq_some_head hne, List.getLast?_eq_some_getLast hne⟩

theorem classify_held {h : Store} (horder : RingOrdered h.ring) {x : Record} (hx : x ∈ h.ring) :
    classify h x.round = .held := by
  obtain ⟨o, n, ho, hn⟩ := exists_ends hx
  rw [classify_eq ho hn, heldRecord_eq horder hx]
  rfl

/-- R36: what a READ of the history answers for a held round, and for any other. -/
theorem answerHistory_held {h : Store} {q : Request} {ch : Fin 16} {x : Record} (horder : RingOrdered h.ring)
    (hch : q.index.toNat = ch.val) (hx : x ∈ h.ring) (hround : x.round = q.value) :
    answerHistory h q = match x.values.get ch with
      | some v => { result := .ok, value := signedWord v, aux := x.epoch.setWidth 32 }
      | none => notHeld .held := by
  unfold answerHistory
  rw [hch, indexOf_of_lt ch.isLt, ← hround, classify_held horder hx, heldRecord_eq horder hx] <;> rfl

theorem answerHistory_notHeld {h : Store} {q : Request} {ch : Fin 16} (hch : q.index.toNat = ch.val)
    (hnone : ∀ x ∈ h.ring, x.round ≠ q.value) : answerHistory h q = notHeld (classify h q.value) := by
  have hheld : heldRecord h q.value = none := by
    rw [← Option.not_isSome_iff_eq_none, heldRecord_isSome]
    rintro ⟨x, hx, hxr⟩
    exact hnone x hx hxr
  unfold answerHistory
  rw [hch, indexOf_of_lt ch.isLt, hheld]
  cases classify h q.value <;> rfl

theorem word_classCode (c : RoundClass) : word (classCode c) = match c with
    | .held => 0
    | .gap => 1
    | .ahead => 2
    | .behind => 3
    | .empty => 4 := by
  cases c <;> rfl

/-- Settles O17. -/
theorem historyReadClassifiesRound : Obligations.HistoryReadClassifiesRound := by
  refine ⟨fun s r h => ⟨fun hring => classify_empty hring r, fun o n ho hn => ?_⟩,
    fun s q h => ⟨fun hindex => ?_, fun ch hch => ⟨fun x hx hround => ⟨fun v hv => ?_, fun hv => ?_⟩, fun hnone => ?_⟩⟩⟩
  all_goals obtain ⟨-, horder, -⟩ := ((streamLaw_iff s).mp h).1
  · obtain ⟨-, hbound⟩ := ring_bounds horder ho hn
    have hheld (hlt : distance o.round n.round < distance o.round r) : ¬ ∃ x ∈ s.store.ring, x.round = r := by
      rintro ⟨x, hx, rfl⟩
      exact absurd (hbound x hx) (Nat.not_le.mpr hlt)
    obtain ⟨⟨x, hx, hxr⟩, hclass, hle⟩ | ⟨hnone, hclass, hle⟩ | ⟨hafter, hclass, hlt⟩ | ⟨hafter, hclass, hlt⟩ :=
      classify_cases horder ho hn r <;> rw [hclass]
    · exact ⟨⟨fun _ => ⟨x, hx, hxr⟩, fun _ => rfl⟩, ⟨nofun, fun hg => absurd hxr (hg.1 x hx)⟩,
        ⟨nofun, fun ha => absurd hle (Nat.not_le.mpr ha.2)⟩, ⟨nofun, fun hb => absurd hle (Nat.not_le.mpr hb.2)⟩⟩
    · exact ⟨⟨nofun, fun ⟨x, hx, hxr⟩ => absurd hxr (hnone x hx)⟩,
        ⟨fun _ => ⟨hnone, gap_between horder ho hn hnone hle⟩, fun _ => rfl⟩,
        ⟨nofun, fun ha => absurd hle (Nat.not_le.mpr ha.2)⟩, ⟨nofun, fun hb => absurd hle (Nat.not_le.mpr hb.2)⟩⟩
    · exact ⟨⟨nofun, fun hx => absurd hx (hheld hlt)⟩, ⟨nofun, fun hg => absurd hg.2.2.2 hlt.asymm⟩,
        ⟨fun _ => ⟨hafter, hlt⟩, fun _ => rfl⟩, ⟨nofun, fun hb => absurd (hafter.symm.trans hb.1) nofun⟩⟩
    · exact ⟨⟨nofun, fun hx => absurd hx (hheld hlt)⟩, ⟨nofun, fun hg => absurd hg.2.2.2 hlt.asymm⟩,
        ⟨nofun, fun ha => absurd (hafter.symm.trans ha.1) nofun⟩, ⟨fun _ => ⟨hafter, hlt⟩, fun _ => rfl⟩⟩
  · rw [answerHistory, indexOf_of_le hindex]
    rfl
  · rw [answerHistory_held horder hch hx hround, hv]
    rfl
  · rw [answerHistory_held horder hch hx hround, hv]
    rfl
  · rw [answerHistory_notHeld hch hnone, notHeld, word_classCode] <;> rfl

end Sys2Proof.Machine
end

section
/-! R39 to R56: the Condition Evaluator. -/

namespace Sys2Proof.Machine

open Stated

variable {s t : State} {e : ChannelEntry} {u : CondUnit} {r : Round} {gap : Nat} {value : Option Sample}

/-! ## One unit in one record -/

/-- R41, R45: what the tests are applied to. -/
theorem testInput_eq (e : ChannelEntry) (u : CondUnit) (gap : Nat) (value : Option Sample) :
    testInput e u.previous gap value = judged e u gap value := by
  have hstep : isStep e.condition = true ↔ e.condition = .riseStep ∨ e.condition = .fallStep := by simp [isStep]
  unfold testInput judged
  by_cases hc : e.condition = .riseStep ∨ e.condition = .fallStep
  · rw [if_pos hc]
    cases value with
    | none => rfl
    | some v =>
      dsimp only
      rw [if_pos (hstep.mpr hc)]
      cases u.previous with
      | none => exact ite_self _
      | some p => rfl
  · rw [if_neg hc]
    cases value with
    | none => rfl
    | some v => exact if_neg (mt hstep.mp hc)

/-- R44 to R46: a unit that is not ACTIVE. -/
theorem transition_idle (hstate : u.state ≠ .active) : transition e u r gap value =
    match judged e u gap value with
    | none => ({ u with state := .idle }, .quiet)
    | some x => judgeIdle e u r (trueBefore u gap) x := by
  unfold transition trueBefore
  rw [testInput_eq]
  cases hu : u.state with
  | active => exact absurd hu hstate
  | idle =>
    cases judged e u gap value with
    | none => simp [afterGap, withoutSample]
    | some x => rfl
  | qualifying k =>
    by_cases hgap : gap = 0 <;> cases judged e u gap value <;>
      simp [afterGap, withoutSample, hgap, judgeIdle, qualifyUnit, assertUnit]

/-- R47: an ACTIVE unit. -/
theorem transition_active (hstate : u.state = .active) : transition e u r gap value =
    match judged e u gap value with
    | none => (u, .quiet)
    | some x => judgeActive e u r x := by
  have hsame : { u with state := .active } = u := by rw [← hstate]
  unfold transition
  rw [testInput_eq, hstate]
  cases judged e u gap value with
  | none => simp [afterGap, withoutSample, hsame]
  | some x => simp [afterGap, hsame]

/-- R48, R49: what a unit does in a record, beside its own change. -/
def outcomeOf (e : ChannelEntry) (u : CondUnit) (r : Round) (gap : Nat) (value : Option Sample) : UnitOutcome :=
  if asserts e u gap value then .asserted
  else if releases e u gap value then .released (durationOf u r)
  else .quiet

theorem durationAt_eq (u : CondUnit) (r : Round) : durationAt u r = durationOf u r := by
  unfold durationAt durationOf
  cases u.lastAssert <;> rfl

/-- R43 to R50: one unit in one record. -/
theorem stepUnit_eq (e : ChannelEntry) (u : CondUnit) (r : Round) (gap : Nat) (value : Option Sample) :
    stepUnit e u r gap value = (unitAfter e u r gap value, outcomeOf e u r gap value) := by
  unfold stepUnit unitAfter outcomeOf
  cases hev : evaluating e
  · simp [asserts, releases, hev]
  · by_cases hstate : u.state = .active
    · have hquiet : quietState e u gap value = .active := by simp [quietState, hstate]
      rw [if_pos rfl, transition_active hstate]
      cases hj : judged e u gap value with
      | none => simp [asserts, releases, hstate, hj, hquiet]
      | some x =>
        cases hrelease : releaseTest e x
        · simp [asserts, releases, hev, hstate, hj, hrelease, hquiet, judgeActive]
        · simp [asserts, releases, hev, hstate, hj, hrelease, judgeActive, releaseUnit, durationAt_eq]
    · rw [if_pos rfl, transition_idle hstate]
      cases hj : judged e u gap value with
      | none =>
        have hquiet : quietState e u gap value = .idle := by
          unfold quietState
          rw [hj]
          cases hu : u.state <;> simp_all
        simp [asserts, releases, hstate, hj, hquiet]
      | some x =>
        have hquiet : quietState e u gap value =
            if trueTest e x then .qualifying (trueBefore u gap + 1) else .idle := by
          unfold quietState
          rw [hj]
          cases hu : u.state <;> simp_all
        cases htrue : trueTest e x
        · simp [asserts, releases, hstate, hj, hquiet, htrue, judgeIdle]
        · by_cases hq : trueBefore u gap + 1 = e.qualify
          · simp [asserts, hev, hstate, hj, htrue, hq, judgeIdle, qualifyUnit, assertUnit, raiseCount,
              Config.countLimit]
          · simp [asserts, releases, hstate, hj, hquiet, htrue, hq, judgeIdle, qualifyUnit]

/-! ## A record and its verdict -/

theorem stepUnits_get (v : Evaluator) (x : Record) (i : Fin 16) : (stepUnits v x).get i =
    (unitAfter (v.entries.get i) (v.units.get i) x.round x.gapBefore (x.values.get i),
      outcomeOf (v.entries.get i) (v.units.get i) x.round x.gapBefore (x.values.get i)) := by
  rw [stepUnits, get_ofFn, stepUnit_eq]

theorem outcomeOf_asserted : outcomeOf e u r gap value = .asserted ↔ asserts e u gap value = true := by
  unfold outcomeOf
  split
  · simp [*]
  · split <;> simp [*]

/-- R46, R47: a unit that asserts was not ACTIVE, and one that releases was. -/
theorem not_asserts_of_releases (h : releases e u gap value = true) : asserts e u gap value = false := by
  have hactive : u.state = .active := by
    simp only [releases, Bool.and_eq_true, decide_eq_true_eq] at h
    exact h.1.2
  simp [asserts, hactive]

theorem released_entry (i : Fin 16) : (match outcomeOf e u r gap value with
    | .released d => some (i, d)
    | .quiet => none
    | .asserted => none) = if releases e u gap value then some (i, durationOf u r) else none := by
  unfold outcomeOf
  cases hrelease : releases e u gap value
  · cases asserts e u gap value <;> rfl
  · rw [not_asserts_of_releases hrelease]
    rfl

/-- Settles O19. -/
theorem recordEvaluatedIntoVerdict : Obligations.RecordEvaluatedIntoVerdict := by
  intro s x rest hfront
  refine ⟨verdictOf x (stepUnits s.evaluator x), ?_, rfl, fun i => ?_, fun i => ?_, ?_⟩
  · show Host.Outcome.next (takeRecordEvaluation s) = _
    rw [takeRecordEvaluation, hfront]
    simp only [evaluateRecord, evaluatorTakes, stepUnits_get, toTable]
  · rw [verdictOf, getLsbD_maskOf, stepUnits_get]
    exact Bool.eq_iff_iff.mpr (by rw [decide_eq_true_iff, outcomeOf_asserted])
  · rw [verdictOf, getLsbD_maskOf, stepUnits_get]
    rfl
  · simp only [verdictOf, releasedList, stepUnits_get]
    exact List.filterMap_congr fun i _ => released_entry i

/-- Settles O20. -/
theorem evaluatorTakesNotices : Obligations.EvaluatorTakesNotices := by
  have hlost (u : CondUnit) :
      unitAtLost u = { u with state := if u.state = .active then .active else .idle, previous := none } := by
    obtain ⟨state, previous, lastAssert, lastRelease, lastDuration, assertCount⟩ := u
    cases state <;> rfl
  intro s rest
  refine ⟨fun hfront => congrArg Host.Outcome.next ?_, fun hfront => congrArg Host.Outcome.next ?_,
    fun hfront => congrArg Host.Outcome.next ?_, fun n hfront => congrArg Host.Outcome.next ?_⟩
  · rw [takeEvaluatorLost, hfront]
    simp only [hlost, changeUnits, evaluatorTakes, toTable]
  · rw [takeEvaluatorRestart, hfront]
    simp only [unitAtRestart, changeUnits, evaluatorTakes, toTable]
  · rw [takeEvaluatorNodeReset, hfront]
    simp only [resetUnit, changeUnits, evaluatorTakes, toTable]
  · rw [takeEvaluatorMark, hfront]
    rfl

end Sys2Proof.Machine
end

section
/-! R61 to R84: the Trigger Table. -/

namespace Sys2Proof.Machine

open Stated

variable {s : State} {t : TriggerTable} {v : Verdict}

/-! ## Handling a verdict (R61 to R73) -/

theorem armState_eq (st : EntryState) : armState st = armedFrom st := by cases st <;> rfl

theorem stateAfterFire_eq (e : TriggerEntry) (st : EntryState) (r : Round) : stateAfterFire e st r =
    if st = .armed then if e.policy = .single then .fired else if e.holdoff = 0 then .armed else .holdoff r
    else st := by
  unfold stateAfterFire
  cases st <;> cases e.policy <;> rfl

theorem fireEvents_eq (i : Fin 8) : fireEvents i (t.entries.get i) (t.live.get i).compare v.round
    (raiseCount (t.live.get i).fireCount) (t.live.get i).forceMark = eventsOf t v i := by
  have hslip : missedCount (t.entries.get i) (t.live.get i).compare v.round = additions t v.round i - 1 := rfl
  unfold fireEvents eventsOf
  rw [hslip]
  dsimp only
  by_cases hmany : 2 ≤ additions t v.round i
  · rw [if_pos hmany, if_neg (by omega)]
    rfl
  · rw [if_neg hmany, if_pos (by omega)]
    rfl

/-- R61, R62, R67 to R69: an entry's own change. -/
theorem entryResults_live (t : TriggerTable) (v : Verdict) (i : Fin 8) :
    ((entryResults t v).get i).live = entryAfter t v i := by
  rw [entryResults_get]
  unfold entryAfter
  dsimp only
  cases fires t v i
  · rfl
  · simp only [if_true, fireEntry, stateAfterFire_eq]
    rfl

theorem entryResults_opens (t : TriggerTable) (v : Verdict) (i : Fin 8) :
    ((entryResults t v).get i).opens = if fires t v i then fireOpens i (t.entries.get i) v.round else [] := by
  rw [entryResults_get]
  cases fires t v i <;> rfl

theorem entryResults_lines (t : TriggerTable) (v : Verdict) (i : Fin 8) :
    ((entryResults t v).get i).lines = if fires t v i then fireLines (t.entries.get i) else [] := by
  rw [entryResults_get]
  cases fires t v i <;> rfl

theorem entryResults_events (t : TriggerTable) (v : Verdict) (i : Fin 8) :
    ((entryResults t v).get i).events = if fires t v i then eventsOf t v i else [] := by
  rw [entryResults_get, ← fireEvents_eq]
  cases fires t v i <;> rfl

/-- The joined results of the entries that fire, in index order. -/
theorem gather_fired {α : Type} {f : EntryResult → List α} {g : Fin 8 → List α}
    (hf : ∀ i, f ((entryResults t v).get i) = if fires t v i then g i else []) :
    gather (entryResults t v) f = (fired t v).flatMap g := by
  unfold gather fired
  simp only [hf]
  induction List.finRange 8 with
  | nil => rfl
  | cons i is ih =>
    rw [List.flatMap_cons, ih]
    cases hi : fires t v i
    · rw [List.filter_cons_of_neg (by simp [hi])]
      rfl
    · rw [List.filter_cons_of_pos hi]
      rfl

theorem gather_opens (t : TriggerTable) (v : Verdict) :
    (gather (entryResults t v) EntryResult.opens).map EngineItem.request =
    (fired t v).filterMap fun i => (t.entries.get i).profile.map fun k =>
      .request { entry := i, round := v.round, profile := k } := by
  rw [gather_fired (g := fun i => fireOpens i (t.entries.get i) v.round) (entryResults_opens t v),
    List.map_flatMap, List.filterMap_eq_flatMap_toList]
  congr 1
  funext i
  unfold fireOpens
  cases (t.entries.get i).profile <;> rfl

theorem gather_lines (t : TriggerTable) (v : Verdict) : gather (entryResults t v) EntryResult.lines =
    (fired t v).filterMap fun i => (t.entries.get i).line.map fun n =>
      { line := n, action := (t.entries.get i).lineAction, length := (t.entries.get i).pulseLength } := by
  rw [gather_fired (g := fun i => fireLines (t.entries.get i)) (entryResults_lines t v),
    List.filterMap_eq_flatMap_toList]
  congr 1
  funext i
  unfold fireLines
  cases (t.entries.get i).line <;> rfl

theorem gather_events (t : TriggerTable) (v : Verdict) :
    gather (entryResults t v) EntryResult.events = (fired t v).flatMap (eventsOf t v) :=
  gather_fired (entryResults_events t v)

/-- Settles O22. -/
theorem verdictFiresEntries : Obligations.VerdictFiresEntries := by
  intro s v rest hfront
  show Host.Outcome.next (takeVerdict s) = _
  rw [takeVerdict, hfront]
  simp only [handleVerdict, tableTakes, toEngine, toLines, gather_opens, gather_lines, gather_events,
    chained_entryResults, armEntry, armState_eq, entryResults_live]

/-! ## The combines (R63 to R66) and the schedule (R69) -/

theorem meets_iff (a b : ChannelMask) :
    meets a b = true ↔ ∃ i : Fin 16, b.getLsbD i.val = true ∧ a.getLsbD i.val = true := by
  unfold meets
  constructor
  · intro h
    by_contra hnone
    refine absurd (BitVec.eq_of_getLsbD_eq fun i hi => ?_) (by simpa using h)
    rw [BitVec.getLsbD_and, BitVec.getLsbD_zero]
    by_contra hbit
    rw [Bool.not_eq_false, Bool.and_eq_true] at hbit
    exact hnone ⟨⟨i, hi⟩, hbit.2, hbit.1⟩
  · rintro ⟨i, hb, ha⟩
    simp only [bne_iff_ne, ne_eq]
    intro hzero
    have hbit := congrArg (fun m : ChannelMask => m.getLsbD i.val) hzero
    rw [BitVec.getLsbD_and, ha, hb] at hbit
    exact absurd (hbit.trans BitVec.getLsbD_zero) nofun

theorem allActive_iff (sources active : ChannelMask) : allActive sources active = true ↔
    ∀ i : Fin 16, sources.getLsbD i.val = true → active.getLsbD i.val = true := by
  rw [allActive, beq_iff_eq, covered_iff]

theorem withinWindow_iff (lastFire : Option Round) (r : Round) (n : Nat) : withinWindow lastFire r n = true ↔
    ∃ f, lastFire = some f ∧ 1 ≤ distance f r ∧ distance f r ≤ n := by
  cases lastFire <;> simp [withinWindow]

theorem widthMatches_iff (e : TriggerEntry) (p : Fin 16 × Nat) : widthMatches e p = true ↔
    e.sources.getLsbD p.1.val = true ∧ e.widthMin ≤ p.2 ∧ p.2 ≤ e.widthMax := by
  simp [widthMatches, hasChannel, and_assoc]

theorem scheduleDue_iff (c : Round) (p : Option Round) (r : Round) : scheduleDue c p r = true ↔
    (∃ q, p = some q ∧ 1 ≤ distance q c ∧ distance q c ≤ distance q r) ∨ (p = none ∧ c = r) := by
  cases p <;> simp [scheduleDue, crossed]

theorem roundsAfter_roundsAfter (c : Round) (m n : Nat) : roundsAfter (roundsAfter c m) n = roundsAfter c (m + n) := by
  rw [roundsAfter, roundsAfter, roundsAfter, BitVec.add_assoc, BitVec.ofNat_add]

/-- R69: one addition leaves one addition fewer to make. -/
theorem scheduleAdditions_step {i : Nat} {c r : Round} (hi : 0 < i) (hi2 : i ≤ 2147483647) (h : isAfter c r = false) :
    scheduleAdditions c r i = scheduleAdditions (roundsAfter c i) r i + 1 := by
  obtain ⟨hwithin, hpast⟩ := add_step hi hi2 h
  rw [scheduleAdditions, h, if_neg nofun]
  by_cases hle : i ≤ distance c r
  · obtain ⟨hdistance, hnot⟩ := hwithin hle
    rw [scheduleAdditions, hnot, if_neg nofun, hdistance, ← Nat.div_eq_sub_div hi hle]
  · rw [scheduleAdditions, hpast (by omega), if_pos rfl, Nat.div_eq_of_lt (by omega)]

/-- R69: the additions go on while the compare is not after `r`, and no further. -/
theorem scheduleAdditions_stops {i : Nat} {r : Round} (hi : 0 < i) (hi2 : i ≤ 2147483647) (c : Round) :
    isAfter (roundsAfter c (scheduleAdditions c r i * i)) r = true ∧
      ∀ m < scheduleAdditions c r i, isAfter (roundsAfter c (m * i)) r = false := by
  generalize hn : scheduleAdditions c r i = n
  induction n generalizing c with
  | zero =>
    refine ⟨?_, nofun⟩
    by_contra hnot
    have hbefore : isAfter c r = false := by simpa [roundsAfter] using hnot
    rw [scheduleAdditions_step hi hi2 hbefore] at hn
    exact absurd hn nofun
  | succ n ih =>
    have hbefore : isAfter c r = false := by
      by_contra hafter
      rw [scheduleAdditions, if_pos (by simpa using hafter)] at hn
      exact absurd hn nofun
    have hnext : scheduleAdditions (roundsAfter c i) r i = n := by
      rw [scheduleAdditions_step hi hi2 hbefore] at hn
      exact Nat.succ.inj hn
    obtain ⟨hafter, hearlier⟩ := ih (roundsAfter c i) hnext
    have hadd (m : Nat) : roundsAfter (roundsAfter c i) (m * i) = roundsAfter c ((m + 1) * i) := by
      rw [roundsAfter_roundsAfter, Nat.add_mul, Nat.one_mul, Nat.add_comm]
    refine ⟨hadd n ▸ hafter, fun m hm => ?_⟩
    cases m with
    | zero => simpa [roundsAfter] using hbefore
    | succ m => exact hadd m ▸ hearlier m (Nat.lt_of_succ_lt_succ hm)

/-- Settles O23. -/
theorem combineTestsAndSchedule : Obligations.CombineTestsAndSchedule := by
  refine ⟨fun e l w p v => ⟨fun hc => ?_, fun hc => ?_, fun hc => ?_, fun hc => ?_, fun hc => ?_⟩,
    fun e c r hlimit => ⟨fun hc hpos => ?_, fun hc => ?_⟩⟩
  · rw [entryTest, hc]
    exact meets_iff _ _
  · rw [entryTest, hc]
    simp only [Bool.and_eq_true, decide_eq_true_eq, meets_iff, allActive_iff]
    constructor
    · rintro ⟨⟨-, hall⟩, hasserted⟩
      exact ⟨hasserted, hall⟩
    · rintro ⟨⟨i, hi, hasserted⟩, hall⟩
      refine ⟨⟨?_, hall⟩, i, hi, hasserted⟩
      rintro hzero
      rw [hzero] at hi
      exact absurd (hi.symm.trans BitVec.getLsbD_zero) nofun
  · rw [entryTest, hc]
    simp only [Bool.and_eq_true, meets_iff, withinWindow_iff]
  · rw [entryTest, hc]
    simp only [List.any_eq_true, widthMatches_iff, Prod.exists]
  · rw [entryTest, hc]
    exact scheduleDue_iff _ _ _
  · rw [advances, if_pos ⟨hc, hpos⟩]
    exact scheduleAdditions_stops hpos hlimit c
  · refine if_neg fun ⟨hschedule, hpos⟩ => ?_
    obtain hother | hzero := hc
    · exact hother hschedule
    · omega

/-! ## Notices -/

theorem armEntry_eq (l : EntryLive) : armEntry l = { l with state := armedFrom l.state } := by
  rw [armEntry, armState_eq]

/-- R74: the answer to a direct notice that changes each entry by `f`. -/
theorem answerNotice_changeEntries (f : Fin 8 → EntryLive → EntryLive) :
    answerNotice s (fun u => changeEntries u f) = { s with
      table := { s.table with live :=
        if s.table.held then s.table.live else Vector.ofFn fun i => f i (s.table.live.get i) }
      paths := { s.paths with
        tableAcks := s.paths.tableAcks ++ [{ refused := s.table.held, round := s.table.previousVerdict }] } } := by
  unfold answerNotice
  cases hheld : s.table.held
  · simp only [if_neg, Bool.false_eq_true, not_false_eq_true, changeEntries, tableAck]
  · simp only [if_true, tableAck, ← hheld]

/-- Settles O24. -/
theorem tableTakesDirectNotices : Obligations.TableTakesDirectNotices := by
  refine ⟨fun s rest => ⟨fun m hfront => congrArg Host.Outcome.next ?_, fun m hfront => congrArg Host.Outcome.next ?_,
    fun j hfront => congrArg Host.Outcome.next ?_⟩,
    fun s rest => ⟨fun hfront => congrArg Host.Outcome.next ?_, fun hfront => congrArg Host.Outcome.next ?_⟩⟩
  · rw [takeArmNotice, hfront]
    simp only [answerNotice_changeEntries, tableTakesNotice, armEntry_eq, hasEntry]
  · rw [takeDisarmNotice, hfront]
    simp only [answerNotice_changeEntries, tableTakesNotice, disarmEntry, hasEntry]
    rfl
  · rw [takeFireNotice, hfront]
    simp only [answerNotice_changeEntries, tableTakesNotice]
  · rw [takeTriggerSafeState, hfront]
    simp only [setTableHeld, changeEntries, tableTakesNotice, disarmEntry]
  · rw [takeTriggerClose, hfront]
    simp only [changeEntries, tableTakesNotice, disarmEntry]

/-- R81: an entry after RESTART. -/
theorem entryAtRestart_eq (l : EntryLive) : entryAtRestart l = { l with
    state := if l.state = .disarmed then .disarmed else if l.state = .fired then .fired else .armed
    lastFire := none } := by
  obtain ⟨state, fireCount, lastFire, compare, forceMark⟩ := l
  cases state <;> rfl

/-- Settles O26. -/
theorem tableTakesStreamNotices : Obligations.TableTakesStreamNotices := by
  intro s rest
  refine ⟨fun hfront => congrArg Host.Outcome.next ?_, fun hfront => congrArg Host.Outcome.next ?_,
    fun n hfront => congrArg Host.Outcome.next ?_, fun hfront => congrArg Host.Outcome.next ?_⟩
  · rw [takeTriggerRestart, hfront]
    simp only [clearPreviousVerdict, changeEntries, tableTakes, toLines, entryAtRestart_eq]
  · rw [takeTriggerLost, hfront]
    rfl
  · have hadopted (e : TriggerEntry) : adoptedEntry e s.table.held =
        { state := if e.armAtCommit = true ∧ s.table.held = false then .armed else .disarmed
          fireCount := 0, lastFire := none, compare := e.compare, forceMark := false } := by
      simp [adoptedEntry]
    rw [takeTriggerMark, hfront]
    simp only [tableAdopts, tableTakes, toLines, toEngine, hadopted]
  · rw [takeTriggerNodeReset, hfront]
    simp only [clearPreviousVerdict, changeEntries, tableTakes, toLines, toEngine, entryAtNodeReset]

end Sys2Proof.Machine
end

section
/-! R87 to R115, R138: the Window Engine's events, each the state change that the statements write out and then the
service pass, and the Egress Queue's answers to its offers. -/

namespace Sys2Proof.Machine

open Stated

variable {s t : State}

/-! ## Windows -/

theorem drain_eq (w : Window) : drain w = draining w := by
  unfold drain closeIfDone draining
  simp only [true_and]
  split <;> rfl

theorem inProgress_eq_live (w : Window) : inProgress w = live w := (Bool.decide_or _ _).symm

theorem shortenWindow_eq (l : Round) (w : Window) : shortenWindow l w = shortened l w := drain_eq _

theorem abortWindows_eq (s : State) : abortWindows s = aborted s := by
  unfold abortWindows aborted discardWindows mapWindows
  simp only [inProgress_eq_live, List.countP_eq_length_filter]
  congr 2
  refine List.map_congr_left fun w hw => ?_
  have hstays : (!(live w && !w.headSent)) = true := (List.mem_filter.mp hw).2
  unfold abortWindow
  rw [inProgress_eq_live]
  cases hlive : live w
  · rfl
  · rw [hlive] at hstays
    have hhead : w.headSent = true := by simpa using hstays
    rw [hhead]
    rfl

theorem flushed_eq (ws : List Window) : ws.map truncateWindow = flushed ws := by
  refine List.map_congr_left fun w _ => ?_
  unfold truncateWindow
  rw [inProgress_eq_live]
  rfl

theorem flushWindows_eq (s : State) : flushWindows s = flushDone s := by
  unfold flushWindows flushDone mapWindows countTruncated
  simp only [inProgress_eq_live, List.countP_eq_length_filter, flushed_eq]

theorem earlier_of_not {a b : Round} (h : atOrAfter b a = false) : earlier a b = b := by
  rw [earlier, h]
  rfl

/-- R93, step 3: where a new window stands against the frontier. -/
theorem placedWindow_cases (s : State) (w : Window) : placedWindow s w =
    match s.engine.frontier with
    | none => if s.engine.lostFlag then draining { w with flags := { w.flags with streamLost := true } } else w
    | some y =>
      if atOrAfter y w.last then draining w
      else if s.engine.lostFlag then draining { w with last := y, flags := { w.flags with streamLost := true } }
      else w := by
  unfold placedWindow
  simp only [drain_eq]
  cases s.engine.frontier with
  | none => rfl
  | some y =>
    dsimp only
    cases hlast : atOrAfter y w.last
    · rw [earlier_of_not hlast]
    · rfl

theorem firstRound_eq (span : Option Round) (r : Round) (pre : Nat) : firstRound span r pre = firstOf span r pre := by
  cases span with
  | none => rfl
  | some p =>
    unfold firstRound firstOf
    dsimp only
    cases atOrAfter r p <;> rfl

theorem placedWindow_eq (s : State) (q : OpenRequest) (id : WindowId) :
    placedWindow s (freshWindow s q id) = newWindow s q id := by
  rw [placedWindow_cases, freshWindow, firstRound_eq]
  rfl

/-! ## Events -/

/-- R101: an event that the engine takes while no pass waits, and the pass that it ends with. -/
theorem onTablePath_takes {f : EngineItem → Option (State → State)} {x : EngineItem} {rest : List EngineItem}
    {act : State → State} (hpass : s.engine.pass = none) (hfront : s.paths.tableToEngine = x :: rest)
    (hact : f x = some act) :
    onTablePath s f = thenPass s (act { s with paths := { s.paths with tableToEngine := rest } }) := by
  rw [onTablePath, hpass, hfront]
  dsimp only
  rw [hact]
  rfl

theorem onStorePath_takes {f : StoreNotice → Option (State → State)} {x : StoreNotice} {rest : List StoreNotice}
    {act : State → State} (hpass : s.engine.pass = none) (hfront : s.paths.storeToEngine = x :: rest)
    (hact : f x = some act) :
    onStorePath s f = thenPass s (act { s with paths := { s.paths with storeToEngine := rest } }) := by
  rw [onStorePath, hpass, hfront]
  dsimp only
  rw [hact]
  rfl

theorem onQueuePath_takes {f : QueueNotice → Option (State → State)} {x : QueueNotice} {rest : List QueueNotice}
    {act : State → State} (hpass : s.engine.pass = none) (hfront : s.paths.queueToEngine = x :: rest)
    (hact : f x = some act) :
    onQueuePath s f = thenPass s (act { s with paths := { s.paths with queueToEngine := rest } }) := by
  rw [onQueuePath, hpass, hfront]
  dsimp only
  rw [hact]
  rfl

theorem onAgentPath_takes {f : EngineNotice → Option (State → State)} {x : EngineNotice} {rest : List EngineNotice}
    {act : State → State} (hpass : s.engine.pass = none) (hfront : s.paths.agentToEngine = x :: rest)
    (hact : f x = some act) :
    onAgentPath s f = thenPass s (act { s with paths := { s.paths with agentToEngine := rest } }) := by
  rw [onAgentPath, hpass, hfront]
  dsimp only
  rw [hact]
  rfl

/-! ## Open requests (R87 to R94) -/

theorem openRequest_exec {q : OpenRequest} {rest : List EngineItem} (hpass : s.engine.pass = none)
    (hfront : s.paths.tableToEngine = .request q :: rest)
    (hu : takeOpen q { s with paths := { s.paths with tableToEngine := rest } } = t) :
    exec .openRequest s = .next (thenPass s t) :=
  congrArg Host.Outcome.next (hu ▸ onTablePath_takes hpass hfront rfl)

theorem refuseOpen_eq (q : OpenRequest) (n : Nat) : refuseOpen s q n = openRefused s q (BitVec.ofNat 32 n) := by
  have hround : refusalRound s q.round = match s.engine.frontier with
      | some f => if atOrAfter f q.round then f else q.round
      | none => q.round := by
    unfold refusalRound
    cases s.engine.frontier <;> rfl
  unfold refuseOpen openRefused
  rw [hround]
  rfl

theorem filter_isMatch (s : State) (q : OpenRequest) : s.engine.windows.filter (isMatch q) = matches_ s q := by
  unfold matches_
  congr 1
  funext w
  simp [isMatch, Bool.and_assoc]

theorem takeOpen_held {q : OpenRequest} (h : s.engine.held = true) : takeOpen q s = refuseOpen s q 1 := by
  rw [takeOpen, if_pos h]

/-- R90: an open request that no OPEN window takes as a retrigger. -/
theorem takeOpen_new {q : OpenRequest} (hheld : s.engine.held = false)
    (hnone : (s.engine.profiles.get q.profile).overlap = .separate ∨ matches_ s q = []) :
    takeOpen q s = createWindow s q := by
  rw [takeOpen, hheld, if_neg nofun, filter_isMatch]
  obtain hseparate | hnone := hnone
  · rw [hseparate]
  · rw [hnone]
    cases (s.engine.profiles.get q.profile).overlap <;> rfl

theorem takeOpen_ignored {q : OpenRequest} (hheld : s.engine.held = false)
    (hoverlap : (s.engine.profiles.get q.profile).overlap = .ignore) (hsome : matches_ s q ≠ []) :
    takeOpen q s = ignoreRetrigger s := by
  rw [takeOpen, hheld, if_neg nofun, filter_isMatch, hoverlap, List.getLast?_eq_some_getLast hsome]

theorem takeOpen_extends {q : OpenRequest} {older : List Window} {w : Window} (hheld : s.engine.held = false)
    (hoverlap : (s.engine.profiles.get q.profile).overlap = .extend) (hlast : matches_ s q = older ++ [w]) :
    takeOpen q s = extendWindow s w q.round := by
  rw [takeOpen, hheld, if_neg nofun, filter_isMatch, hoverlap, hlast, List.getLast?_concat]

theorem extendWindow_eq (w : Window) (r : Round) : extendWindow s w r =
    if isAfter (candidateOf w r) w.last then { s with
      engine := { s.engine with windows := s.engine.windows.map fun x =>
        if x.id = w.id then { x with last := candidateOf w r, flags := { x.flags with extended := true } } else x }
      counters := { s.counters with windowsExtended := raise s.counters.windowsExtended 1 } }
    else { s with counters := { s.counters with retriggersIgnored := raise s.counters.retriggersIgnored 1 } } := rfl

theorem createWindow_full {q : OpenRequest} (hfull : Config.windowSlots ≤ s.engine.windows.length) :
    createWindow s q = openRefused s q 2 := by
  rw [createWindow, if_pos hfull, refuseOpen_eq]
  rfl

/-- R93: the window created. -/
theorem createWindow_room {q : OpenRequest} {id : WindowId} (hroom : s.engine.windows.length ≤ 5)
    (hid : freeId s.engine.windows s.engine.windows.length s.engine.nextId = id) : createWindow s q = { s with
      engine := { s.engine with windows := s.engine.windows ++ [newWindow s q id], nextId := id + 1 }
      counters := { s.counters with windowsOpened := raise s.counters.windowsOpened 1 } } := by
  have hless : ¬ Config.windowSlots ≤ s.engine.windows.length := by
    have : Config.windowSlots = 6 := rfl
    omega
  rw [createWindow, if_neg hless, hid]
  dsimp only
  rw [placedWindow_eq]

/-- Settles O28. -/
theorem openRequestRefusedOrRetrigger : Obligations.OpenRequestRefusedOrRetrigger := by
  intro s q rest hpass hfront
  refine ⟨fun hheld => openRequest_exec hpass hfront ?_, fun hheld hnone hfull => openRequest_exec hpass hfront ?_,
    fun hheld hoverlap hsome => openRequest_exec hpass hfront ?_,
    fun older w hheld hoverlap hlast => openRequest_exec hpass hfront ?_⟩
  · refine (takeOpen_held ?_).trans (refuseOpen_eq q 1)
    exact hheld
  · refine (takeOpen_new ?_ ?_).trans (createWindow_full hfull)
    · exact hheld
    · exact hnone
  · refine takeOpen_ignored ?_ ?_ ?_
    · exact hheld
    · exact hoverlap
    · exact hsome
  · refine (takeOpen_extends (older := older) ?_ ?_ ?_).trans (extendWindow_eq w q.round)
    · exact hheld
    · exact hoverlap
    · exact hlast

/-- Settles O29. -/
theorem openRequestCreatesWindow : Obligations.OpenRequestCreatesWindow := by
  intro s q rest hpass hfront hheld hnone hroom
  have hfresh := freeId_fresh s.engine.windows s.engine.nextId (by omega)
  obtain ⟨k, hk, hid, hbelow, -⟩ := freeId_spec s.engine.windows s.engine.windows.length s.engine.nextId
  refine ⟨k, hk.trans hroom, fun w hw hwid => ?_, fun j hj => ?_, openRequest_exec hpass hfront ?_⟩
  · exact hfresh (hid ▸ hwid ▸ List.mem_map_of_mem hw)
  · exact List.mem_map.mp (hbelow j hj)
  · refine (takeOpen_new ?_ ?_).trans (createWindow_room hroom hid)
    · exact hheld
    · exact hnone

/-! ## Notices (R95 to R115) -/

theorem takeStored_quiet (r : Round) (h : 0 < s.engine.balance) : takeStored r s = s := if_pos h

theorem takeStored_eq (r : Round) (h : s.engine.balance ≤ 0) : takeStored r s = { s with
    engine := { s.engine with
      frontier := some r, lostFlag := false
      windows := s.engine.windows.map fun w =>
        if w.state = .opened ∧ atOrAfter r w.last = true then draining w else w } } := by
  rw [takeStored, if_neg (Int.not_lt.mpr h), mapWindows]
  simp only [drain_eq]

theorem takeLost_quiet (n : Round) (h : 0 < s.engine.balance) : takeLost n s = s := if_pos h

theorem takeLost_eq (n : Round) (h : s.engine.balance ≤ 0) : takeLost n s = { s with
    engine := { s.engine with
      lostFlag := true
      windows := s.engine.windows.map fun w =>
        if w.state = .opened then shortened (if atOrAfter n w.last then w.last else n) w else w } } := by
  rw [takeLost, if_neg (Int.not_lt.mpr h), mapWindows]
  simp only [shortenWindow_eq, earlier]

theorem takeFlushedRestart_quiet (h : 0 < s.engine.balance) : takeFlushedRestart s = s := if_pos h

theorem takeFlushedRestart_eq (h : s.engine.balance ≤ 0) : takeFlushedRestart s = flushDone s :=
  (if_neg (Int.not_lt.mpr h)).trans (flushWindows_eq s)

theorem takeFlushedNodeReset_eq (s : State) : takeFlushedNodeReset s =
    { (if 0 < s.engine.balance then s else flushDone s) with
      engine := { (if 0 < s.engine.balance then s else flushDone s).engine with
        balance := s.engine.balance - 1 } } := by
  rw [takeFlushedNodeReset, flushWindows_eq]
  split <;> rfl

theorem releaseSlot_eq (i : WindowId) (s : State) : releaseSlot i s = { s with
    engine := { s.engine with
      windows := s.engine.windows.filter fun w => decide (w.id ≠ i ∨ w.state ≠ .closed) } } := by
  unfold releaseSlot
  simp only [Bool.not_and, ← decide_not, Bool.decide_or]

theorem takeEngineNodeReset_eq (s : State) : takeEngineNodeReset s = { aborted s with
    engine := { (aborted s).engine with
      frontier := none, lostFlag := false, balance := s.engine.balance + 1, ackDue := some .nodeReset } } := by
  rw [takeEngineNodeReset, abortWindows_eq]
  rfl

/-- Settles O30. -/
theorem engineTakesNotices : Obligations.EngineTakesNotices := by
  refine ⟨fun s rest hpass => ⟨fun r hfront => ⟨fun hb => ?_, fun hb => ?_⟩, fun r hfront => ?_,
    fun n hfront => ⟨fun hb => ?_, fun hb => ?_⟩, fun hfront => ⟨fun hb => ?_, fun hb => ?_⟩, fun hfront => ?_⟩,
    fun s hpass => ⟨fun rest hfront => ?_, fun i rest hfront => ?_, fun rest hfront => ?_, fun rest hfront => ?_,
      fun n rest hfront => ?_, fun rest hfront => ?_⟩⟩
  all_goals refine congrArg Host.Outcome.next ?_
  · refine (onStorePath_takes hpass hfront rfl).trans (congrArg _ (takeStored_quiet r ?_))
    exact hb
  · refine (onStorePath_takes hpass hfront rfl).trans (congrArg _ (takeStored_eq r ?_))
    exact hb
  · exact (onStorePath_takes hpass hfront rfl).trans (congrArg _ (id_eq _))
  · refine (onStorePath_takes hpass hfront rfl).trans (congrArg _ (takeLost_quiet n ?_))
    exact hb
  · refine (onStorePath_takes hpass hfront rfl).trans (congrArg _ (takeLost_eq n ?_))
    exact hb
  · refine (onStorePath_takes hpass hfront rfl).trans (congrArg _ (takeFlushedRestart_quiet ?_))
    exact hb
  · refine (onStorePath_takes hpass hfront rfl).trans (congrArg _ (takeFlushedRestart_eq ?_))
    exact hb
  · exact (onStorePath_takes hpass hfront rfl).trans (congrArg _ (takeFlushedNodeReset_eq _))
  · exact (onQueuePath_takes hpass hfront rfl).trans (congrArg _ (id_eq _))
  · exact (onQueuePath_takes hpass hfront rfl).trans (congrArg _ (releaseSlot_eq i _))
  · refine (onAgentPath_takes hpass hfront rfl).trans (congrArg _ ?_)
    rw [takeEngineSafeState, abortWindows_eq]
    rfl
  · exact (onAgentPath_takes hpass hfront rfl).trans rfl
  · exact (onTablePath_takes hpass hfront rfl).trans rfl
  · exact (onTablePath_takes hpass hfront rfl).trans (congrArg _ (takeEngineNodeReset_eq _))

/-! ## Offers (R106 to R109, R138) -/

theorem emitted_eq (k : Nat) (w : Window) : emitted k w = { w with
    emitted := w.emitted + 1, cells := w.cells + k, cursor := w.cursor + 1
    state := if w.state = .draining ∧ isAfter (w.cursor + 1) w.last = true then .closing else w.state } := by
  have hnext : roundsAfter w.cursor 1 = w.cursor + 1 := rfl
  unfold emitted closeIfDone
  rw [hnext]
  split <;> rfl

/-- Settles O32. -/
theorem windowOffersAnswered : Obligations.WindowOffersAnswered := by
  intro s rest
  refine ⟨fun h hfront => ⟨fun hroom => ?_, fun hfull => ?_⟩, fun x g hfront => ⟨fun hroom => ?_, fun hfull => ?_⟩,
    fun x hfront => ?_⟩
  all_goals refine congrArg Host.Outcome.next ?_
  · rw [takeWinHead, hfront]
    exact if_pos hroom
  · rw [takeWinHead, hfront]
    exact if_neg (Nat.not_lt.mpr hfull)
  · rw [takeWinGroup, hfront]
    refine (if_pos hroom).trans (congrArg resumePass ?_)
    simp only [groupEmitted, updateWindow, mapWindows, emitted_eq]
    rfl
  · rw [takeWinGroup, hfront]
    exact if_neg (Nat.not_le.mpr hfull)
  · rw [takeWinTail, hfront]
    rfl

end Sys2Proof.Machine
end

section
/-! R88, R103, R104, R107, R109: how a window's cursor moves, and that each of its rounds is counted once. -/

namespace Sys2Proof.Machine

open Stated

variable {w v : Window} {h : Store}

/-! ## The cursor and the last round -/

theorem inReach_iff : InReach w ↔ inProgress w = true ∧ hasRounds w = true := by
  rw [inProgress_eq_live]
  rfl

theorem distance_of_inReach (hreach : InReach w) : distance w.cursor w.last ≤ 2147483647 := atOrAfter_iff.mp hreach.2

theorem remaining_of_inReach (hreach : InReach w) : remaining w = distance w.cursor w.last + 1 := if_pos hreach.2

theorem not_isAfter_of_atOrAfter {a b : Round} (hle : atOrAfter b a = true) : isAfter a b = false := by
  rw [Bool.eq_false_iff, Ne, isAfter_iff]
  rw [atOrAfter_iff] at hle
  by_cases heq : a = b
  · simp [heq]
  · have := distance_back heq
    omega

/-- R109: a window whose cursor is at or before L stays as it is. -/
theorem closeIfDone_of_hasRounds (hrounds : hasRounds w = true) : closeIfDone w = w := by
  unfold closeIfDone
  rw [not_isAfter_of_atOrAfter hrounds]
  exact if_neg nofun

/-- R109: the cursor is just past L. -/
theorem closeIfDone_of_past (hpast : w.cursor = roundsAfter w.last 1) : closeIfDone w = pastLast w := by
  have hafter : isAfter w.cursor w.last = true := by
    rw [isAfter_iff, hpast, distance_roundsAfter]
    decide
  unfold closeIfDone pastLast
  rw [hafter]
  by_cases hdraining : w.state = .draining
  · rw [if_pos ⟨hdraining, rfl⟩, if_pos hdraining]
  · rw [if_neg (fun hboth => hdraining hboth.1), if_neg hdraining]

theorem roundsAfter_distance (a b : Round) : roundsAfter a (distance a b) = b := by
  rw [roundsAfter, distance, BitVec.ofNat_toNat, BitVec.setWidth_eq]
  exact add_sub_cancel a b

/-- A cursor moved `k` rounds on, within what is left, is at or before L. -/
theorem atOrAfter_advanced (hreach : InReach w) {k : Nat} (hk : k ≤ distance w.cursor w.last) :
    atOrAfter w.last (roundsAfter w.cursor k) = true := by
  have hhalf := distance_of_inReach hreach
  have hmoved : distance w.cursor (roundsAfter w.cursor k) = k := by
    rw [distance_roundsAfter]
    omega
  rw [atOrAfter_iff, distance_sub (a := w.cursor) (by omega), hmoved]
  omega

theorem past_advanced : roundsAfter w.cursor (distance w.cursor w.last + 1) = roundsAfter w.last 1 := by
  rw [← roundsAfter_roundsAfter, roundsAfter_distance]

/-! ## Moves of the cursor -/

/-- `v` is window `w` with its cursor `k` rounds on and each of them counted; a DRAINING window that is through with its
rounds is CLOSING. -/
structure Advances (w v : Window) (k : Nat) : Prop where
  within  : k ≤ remaining w
  first   : v.first = w.first
  last    : v.last = w.last
  cursor  : v.cursor = roundsAfter w.cursor k
  counted : v.emitted + v.lost = w.emitted + w.lost + k
  state   : v.state = if k = remaining w ∧ w.state = .draining then .closing else w.state

theorem Advances.left {k : Nat} (hmove : Advances w v k) : remaining v = remaining w - k :=
  remaining_advance w v k hmove.last hmove.cursor hmove.within

/-- R88: the rounds of a window in progress: those counted and those left. -/
theorem counted_total (hcounted : Counted w) (hlive : live w = true) :
    distance w.first w.cursor = w.emitted + w.lost ∧
      w.emitted + w.lost + remaining w = roundsBetween w.first w.last := by
  rw [Counted, if_pos hlive] at hcounted
  obtain ⟨hdistance, hle⟩ := hcounted
  refine ⟨hdistance, ?_⟩
  rw [← hdistance] at hle ⊢
  unfold remaining hasRounds
  unfold roundsBetween at hle ⊢
  simp only [atOrAfter_iff] at hle ⊢
  have hf := w.first.isLt
  have hc := w.cursor.isLt
  have hl := w.last.isLt
  simp only [distance_eq] at hle ⊢
  split at hle <;> split <;> omega

/-- R88: a window keeps its rounds counted as its cursor moves. -/
theorem Advances.keeps_counted {k : Nat} (hmove : Advances w v k) (hreach : InReach w) (hcounted : Counted w) :
    Counted v := by
  obtain ⟨hdistance, htotal⟩ := counted_total hcounted hreach.1
  obtain ⟨hwithin, hfirst, hlast, hcursor, hcount, hstate⟩ := hmove
  have hhalf : roundsBetween w.first w.last < 2 ^ 32 := by
    unfold roundsBetween
    split
    · rename_i hle
      rw [atOrAfter_iff] at hle
      omega
    · omega
  have hmoved : distance w.cursor v.cursor = k := by
    rw [hcursor, distance_roundsAfter]
    omega
  have hto : distance w.first v.cursor = w.emitted + w.lost + k := by
    rw [distance_add (b := w.cursor) (by omega), hmoved, hdistance]
  unfold Counted
  rw [hfirst, hlast, hcount]
  by_cases hdone : k = remaining w ∧ w.state = .draining
  · rw [if_pos hdone] at hstate
    have hlive : live v = false := by simp [live, hstate]
    rw [hlive, if_neg nofun]
    omega
  · rw [if_neg hdone] at hstate
    have hlive : live v = true := by
      rw [live, hstate]
      exact hreach.1
    rw [hlive, if_pos rfl]
    omega

/-- A move within what is left, short of the last round. -/
theorem advances_short {k : Nat} (hk : k < remaining w) (hfirst : v.first = w.first) (hlast : v.last = w.last)
    (hcursor : v.cursor = roundsAfter w.cursor k) (hcounted : v.emitted + v.lost = w.emitted + w.lost + k)
    (hstate : v.state = w.state) : Advances w v k :=
  ⟨hk.le, hfirst, hlast, hcursor, hcounted, hstate.trans (if_neg fun hboth => hk.ne hboth.1).symm⟩

/-- A move past L. -/
theorem advances_past (hreach : InReach w) (hfirst : v.first = w.first) (hlast : v.last = w.last)
    (hcursor : v.cursor = roundsAfter w.last 1)
    (hcounted : v.emitted + v.lost = w.emitted + w.lost + (distance w.cursor w.last + 1))
    (hstate : v.state = (pastLast w).state) : Advances w v (distance w.cursor w.last + 1) := by
  have hremaining := remaining_of_inReach hreach
  refine ⟨hremaining.ge, hfirst, hlast, hcursor.trans past_advanced.symm, hcounted, hstate.trans ?_⟩
  unfold pastLast
  simp [hremaining]

/-- The window after an emitted round of `k` cells, before R109 is checked. -/
def cursorEmitted (k : Nat) (w : Window) : Window :=
  { w with emitted := w.emitted + 1, cells := w.cells + k, cursor := roundsAfter w.cursor 1 }

theorem emitted_eq_closeIfDone (k : Nat) (w : Window) : emitted k w = closeIfDone (cursorEmitted k w) := rfl

theorem cursorEmitted_counted (k : Nat) (w : Window) :
    (cursorEmitted k w).emitted + (cursorEmitted k w).lost = w.emitted + w.lost + 1 :=
  Nat.add_right_comm w.emitted 1 w.lost

/-- R107: an emitted round. -/
theorem emitted_advances (k : Nat) (hreach : InReach w) : Advances w (emitted k w) 1 := by
  have hremaining := remaining_of_inReach hreach
  have hcounted := cursorEmitted_counted k w
  have hcursor : (cursorEmitted k w).cursor = roundsAfter w.cursor 1 := rfl
  rw [emitted_eq_closeIfDone]
  by_cases hmore : 1 ≤ distance w.cursor w.last
  · have hrounds : hasRounds (cursorEmitted k w) = true := atOrAfter_advanced hreach hmore
    rw [closeIfDone_of_hasRounds hrounds]
    exact advances_short (by omega) rfl rfl hcursor hcounted rfl
  · have hzero : distance w.cursor w.last = 0 := by omega
    have hpast : (cursorEmitted k w).cursor = roundsAfter w.last 1 := by
      rw [hcursor, ← past_advanced (w := w), hzero]
    rw [closeIfDone_of_past hpast]
    have hmove : Advances w (pastLast (cursorEmitted k w)) (distance w.cursor w.last + 1) :=
      advances_past hreach rfl rfl hpast (hzero ▸ hcounted) rfl
    rwa [hzero] at hmove

/-! ## Skips (R103, R104) -/

theorem isBehind_iff : isBehind h w = true ↔ InReach w ∧ classify h w.cursor = .behind := by
  rw [inReach_iff]
  simp [isBehind, and_assoc]

theorem isOnGap_iff : isOnGap h w = true ↔ InReach w ∧ classify h w.cursor = .gap := by
  rw [inReach_iff]
  simp [isOnGap, and_assoc]

theorem settleSkip_behind {o : Round} (hreach : InReach w) (hbehind : classify h w.cursor = .behind)
    (ho : oldestRound h = some o) : settleSkip h w = behindMoved o w := by
  rw [settleSkip, if_pos (isBehind_iff.mpr ⟨hreach, hbehind⟩), settleBehind, ho]
  unfold behindMoved
  dsimp only
  split
  · rename_i hle
    exact closeIfDone_of_hasRounds hle
  · rw [remaining_of_inReach hreach]
    exact closeIfDone_of_past rfl

theorem settleSkip_gap (hreach : InReach w) (hgap : classify h w.cursor = .gap) :
    settleSkip h w = gapMoved (gapLength h w) w := by
  have hnot : ¬ isBehind h w = true := fun hbehind =>
    absurd ((isBehind_iff.mp hbehind).2.symm.trans hgap) nofun
  have hwithin : gapLength h w ≤ distance w.cursor w.last + 1 := remaining_of_inReach hreach ▸ Nat.min_le_right _ _
  rw [settleSkip, if_neg hnot, if_pos (isOnGap_iff.mpr ⟨hreach, hgap⟩), skipGap, gapMoved]
  dsimp only
  split
  · rename_i hall
    rw [closeIfDone_of_past]
    · rfl
    · rw [hall]
      exact past_advanced
  · exact closeIfDone_of_hasRounds (atOrAfter_advanced hreach (by omega))

theorem settleSkip_other (hother : InReach w → classify h w.cursor ≠ .behind ∧ classify h w.cursor ≠ .gap) :
    settleSkip h w = w := by
  rw [settleSkip, if_neg, if_neg]
  · exact fun hgap => (hother (isOnGap_iff.mp hgap).1).2 (isOnGap_iff.mp hgap).2
  · exact fun hbehind => (hother (isBehind_iff.mp hbehind).1).1 (isBehind_iff.mp hbehind).2

/-- R34: a store with a classified round holds an oldest and a newest record. -/
theorem ends_of_classify {r : Round} (hclass : classify h r ≠ .empty) :
    ∃ o n, h.ring.head? = some o ∧ h.ring.getLast? = some n := by
  cases hring : h.ring with
  | nil => exact absurd (classify_empty hring r) hclass
  | cons x xs => exact exists_ends (x := x) List.mem_cons_self

theorem behindMoved_advances (hreach : InReach w) (hbehind : classify h w.cursor = .behind) {o : Record}
    (ho : h.ring.head? = some o) : ∃ k, Advances w (behindMoved o.round w) k := by
  obtain ⟨o', n, ho', hn⟩ := ends_of_classify (h := h) (r := w.cursor) (by rw [hbehind]; nofun)
  obtain rfl := Option.some.inj (ho.symm.trans ho')
  have hremaining := remaining_of_inReach hreach
  unfold behindMoved
  dsimp only
  split
  · rename_i hle
    have hsum : distance w.cursor o.round + distance o.round w.last = distance w.cursor w.last := by
      rw [classify_eq ho hn] at hbehind
      split at hbehind
      · cases hbehind
      split at hbehind
      · cases hbehind
      split at hbehind
      · cases hbehind
      exact behind_oldest ‹_› ‹_› (distance_of_inReach hreach) (atOrAfter_iff.mp hle)
    refine ⟨distance w.cursor o.round, advances_short (by omega) rfl rfl (roundsAfter_distance _ _).symm ?_ rfl⟩
    exact (Nat.add_assoc _ _ _).symm
  · exact ⟨_, advances_past hreach rfl rfl rfl (Nat.add_assoc _ _ _).symm rfl⟩

theorem gapMoved_advances (hreach : InReach w) {k : Nat} (hk : k ≤ remaining w) : Advances w (gapMoved k w) k := by
  have hremaining := remaining_of_inReach hreach
  have hsum : w.emitted + (w.lost + k) = w.emitted + w.lost + k := (Nat.add_assoc _ _ _).symm
  unfold gapMoved
  dsimp only
  split
  · rename_i hall
    subst hall
    exact advances_past hreach rfl rfl past_advanced hsum rfl
  · exact advances_short (by omega) rfl rfl rfl hsum rfl

/-! ## Gaps -/

theorem foldl_min_mem (l : List Nat) (a : Nat) : l.foldl min a = a ∨ l.foldl min a ∈ l := by
  induction l generalizing a with
  | nil => exact .inl rfl
  | cons x xs ih =>
    rw [List.foldl_cons]
    obtain heq | hmem := ih (min a x)
    · rw [heq]
      obtain hle | hle := Nat.le_total a x
      · exact .inl (Nat.min_eq_left hle)
      · exact .inr ((Nat.min_eq_right hle).symm ▸ List.mem_cons_self)
    · exact .inr (List.mem_cons_of_mem x hmem)

/-- No record held is nearer than the next one, and some record is there, if any is within the circle. -/
theorem nextHeld_le {r : Round} {x : Record} (hx : x ∈ h.ring) : nextHeld h r ≤ distance r x.round :=
  (foldl_min_le (h.ring.map fun x => distance r x.round) (2 ^ 32)).2 _
    (List.mem_map_of_mem (f := fun x => distance r x.round) hx)

theorem le_nextHeld {r : Round} {k : Nat} (hk : k ≤ 2 ^ 32) (hall : ∀ x ∈ h.ring, k ≤ distance r x.round) :
    k ≤ nextHeld h r :=
  (le_foldl_min _ _ _).mpr ⟨hk, List.forall_mem_map.mpr hall⟩

theorem nextHeld_spec {r : Round} (hlt : nextHeld h r < 2 ^ 32) : ∃ x ∈ h.ring, distance r x.round = nextHeld h r := by
  obtain heq | hmem := foldl_min_mem (h.ring.map fun x => distance r x.round) (2 ^ 32)
  · exact absurd heq hlt.ne
  · exact List.mem_map.mp hmem

/-- R104: a gap round is followed by gap rounds up to the next round held. -/
theorem gap_run {c : Round} (horder : RingOrdered h.ring) (hgap : classify h c = .gap) {j : Nat}
    (hj : j < nextHeld h c) : classify h (roundsAfter c j) = .gap := by
  obtain ⟨o, n, ho, hn⟩ := ends_of_classify (h := h) (r := c) (by rw [hgap]; nofun)
  obtain ⟨hhalf, -⟩ := ring_bounds horder ho hn
  obtain ⟨-, hclass, -⟩ | ⟨-, -, hwithin⟩ | ⟨-, hclass, -⟩ | ⟨-, hclass, -⟩ := classify_cases horder ho hn c
  · exact absurd (hgap.symm.trans hclass) nofun
  · have hnewest := nextHeld_le (r := c) (List.mem_of_getLast? hn)
    have hsub := distance_sub hwithin
    have hmoved : distance c (roundsAfter c j) = j := by
      rw [distance_roundsAfter]
      omega
    have hto : distance o.round (roundsAfter c j) = distance o.round c + j := by
      rw [distance_add (b := c) (by omega), hmoved]
    have hnone : ∀ x ∈ h.ring, x.round ≠ roundsAfter c j := fun x hx hround => by
      have := nextHeld_le (r := c) hx
      rw [hround, hmoved] at this
      omega
    obtain ⟨⟨x, hx, hround⟩, -⟩ | ⟨-, hclass, -⟩ | ⟨-, -, hbeyond⟩ | ⟨-, -, hbeyond⟩ :=
      classify_cases horder ho hn (roundsAfter c j)
    · exact absurd hround (hnone x hx)
    · exact hclass
    · omega
    · omega
  · exact absurd (hgap.symm.trans hclass) nofun
  · exact absurd (hgap.symm.trans hclass) nofun

/-- R104: the length of a gap under a cursor. -/
theorem gapLength_spec (horder : RingOrdered h.ring) (hreach : InReach w) (hgap : classify h w.cursor = .gap) :
    1 ≤ gapLength h w ∧ gapLength h w ≤ distance w.cursor w.last + 1 ∧
      (∀ j < gapLength h w, classify h (roundsAfter w.cursor j) = .gap) ∧
      (gapLength h w ≤ distance w.cursor w.last → classify h (roundsAfter w.cursor (gapLength h w)) ≠ .gap) := by
  have hremaining := remaining_of_inReach hreach
  have hhalf := distance_of_inReach hreach
  have hpositive : 1 ≤ nextHeld h w.cursor := le_nextHeld (by omega) fun x hx => by
    have hne : distance w.cursor x.round ≠ 0 := fun hzero => by
      have hheld := classify_held horder hx
      rw [← distance_eq_zero.mp hzero, hgap] at hheld
      cases hheld
    omega
  unfold gapLength
  refine ⟨by omega, by omega, fun j hj => gap_run horder hgap (by omega), fun hle => ?_⟩
  have hnext : min (nextHeld h w.cursor) (remaining w) = nextHeld h w.cursor := by omega
  obtain ⟨x, hx, hdistance⟩ := nextHeld_spec (h := h) (r := w.cursor) (by omega)
  rw [hnext, ← hdistance, roundsAfter_distance, classify_held horder hx]
  nofun

/-- R103, R104, R109: what step 2 of a pass makes of a window. -/
theorem settled_settleSkip (horder : RingOrdered h.ring) (w : Window) : Settled h w (settleSkip h w) := by
  refine ⟨fun hreach hbehind => ?_, fun hreach hgap => ?_, settleSkip_other⟩
  · obtain ⟨o, n, ho, -⟩ := ends_of_classify (h := h) (r := w.cursor) (by rw [hbehind]; nofun)
    have holdest : oldestRound h = some o.round := by
      rw [oldestRound, ho]
      rfl
    refine ⟨o.round, ?_, settleSkip_behind hreach hbehind holdest⟩
    rw [ho]
    rfl
  · obtain ⟨hpositive, hwithin, hrun, hend⟩ := gapLength_spec horder hreach hgap
    exact ⟨gapLength h w, hpositive, hwithin, hrun, hend, settleSkip_gap hreach hgap⟩

/-- R103, R104: a skip moves the cursor and emits nothing. -/
theorem settleSkip_advances (h : Store) (w : Window) : settleSkip h w = w ∨
    InReach w ∧ (settleSkip h w).emitted = w.emitted ∧ ∃ k, Advances w (settleSkip h w) k := by
  by_cases hbehind : InReach w ∧ classify h w.cursor = .behind
  · obtain ⟨hreach, hbehind⟩ := hbehind
    obtain ⟨o, n, ho, -⟩ := ends_of_classify (h := h) (r := w.cursor) (by rw [hbehind]; nofun)
    have holdest : oldestRound h = some o.round := by
      rw [oldestRound, ho]
      rfl
    rw [settleSkip_behind hreach hbehind holdest]
    refine .inr ⟨hreach, ?_, behindMoved_advances hreach hbehind ho⟩
    unfold behindMoved
    dsimp only
    split <;> rfl
  · by_cases hgap : InReach w ∧ classify h w.cursor = .gap
    · obtain ⟨hreach, hgap⟩ := hgap
      rw [settleSkip_gap hreach hgap]
      refine .inr ⟨hreach, ?_, _, gapMoved_advances hreach (Nat.min_le_right _ _)⟩
      unfold gapMoved
      dsimp only
      split <;> rfl
    · exact .inl (settleSkip_other fun hreach =>
        ⟨fun hclass => hbehind ⟨hreach, hclass⟩, fun hclass => hgap ⟨hreach, hclass⟩⟩)

/-! ## Rounds counted once (R88) -/

theorem roundsBetween_of_after {f l : Round} (hafter : isAfter f l = true) : roundsBetween f l = 0 := by
  refine if_neg fun hle => ?_
  rw [not_isAfter_of_atOrAfter hle] at hafter
  cases hafter

theorem counted_truncateWindow (hcounted : Counted w) : Counted (truncateWindow w) := by
  unfold truncateWindow
  rw [inProgress_eq_live]
  cases hlive : live w
  · exact hcounted
  · rw [if_pos rfl]
    obtain ⟨-, htotal⟩ := counted_total hcounted hlive
    exact (Nat.add_assoc _ _ _).symm.trans htotal

theorem counted_abortWindow (hcounted : Counted w) : Counted (abortWindow w) := by
  unfold abortWindow
  rw [inProgress_eq_live]
  by_cases hends : (live w && w.headSent) = true
  · rw [if_pos hends]
    obtain ⟨-, htotal⟩ := counted_total hcounted (Bool.and_eq_true_iff.mp hends).1
    exact (Nat.add_assoc _ _ _).symm.trans htotal
  · rwa [if_neg hends]

/-- R109: what a window that becomes DRAINING must have counted. -/
theorem counted_draining (hlive : isAfter w.cursor w.last = false →
      distance w.first w.cursor = w.emitted + w.lost ∧ w.emitted + w.lost ≤ roundsBetween w.first w.last)
    (hdone : isAfter w.cursor w.last = true → w.emitted + w.lost = roundsBetween w.first w.last) :
    Counted (draining w) := by
  unfold Counted draining live
  cases hafter : isAfter w.cursor w.last
  · exact (if_pos rfl).mpr (hlive hafter)
  · exact (if_neg nofun).mpr (hdone hafter)

/-- R97: a shortened window counts only the rounds up to its new L. -/
theorem counted_shortenWindow {l : Round} (hcounted : Counted w) (hopen : w.state = .opened)
    (hle : atOrAfter w.last l = true) (hhalf : distance l w.cursor ≠ 2147483648)
    (hemitted : w.emitted ≤ roundsBetween w.first l) : Counted (shortenWindow l w) := by
  have hlive : live w = true := by simp [live, hopen]
  rw [Counted, if_pos hlive] at hcounted
  obtain ⟨hdistance, hwithin⟩ := hcounted
  have hf := w.first.isLt
  have hc := w.cursor.isLt
  have hl := w.last.isLt
  have hl' := l.isLt
  rw [atOrAfter_iff] at hle
  rw [shortenWindow_eq]
  refine counted_draining (fun hafter => ?_) (fun hafter => ?_)
  · have hnot : ¬ (1 ≤ distance l w.cursor ∧ distance l w.cursor ≤ 2147483647) := by
      rw [← isAfter_iff]
      exact Bool.eq_false_iff.mp hafter
    show distance w.first w.cursor = w.emitted + (w.lost - (distance w.first w.cursor - roundsBetween w.first l)) ∧
      w.emitted + (w.lost - (distance w.first w.cursor - roundsBetween w.first l)) ≤ roundsBetween w.first l
    rw [← hdistance] at hwithin
    have hshort : distance w.first w.cursor ≤ roundsBetween w.first l := by
      unfold roundsBetween at hwithin ⊢
      simp only [atOrAfter_iff, distance_eq] at *
      split at hwithin <;> split <;> omega
    omega
  · obtain ⟨hone, hnear⟩ := isAfter_iff.mp (show isAfter w.cursor l = true from hafter)
    show w.emitted + (w.lost - (distance w.first w.cursor - roundsBetween w.first l)) = roundsBetween w.first l
    rw [← hdistance] at hwithin
    have hlong : roundsBetween w.first l ≤ distance w.first w.cursor := by
      unfold roundsBetween at hwithin ⊢
      simp only [atOrAfter_iff, distance_eq] at *
      split at hwithin <;> split <;> omega
    omega

/-- R93: a window with no round counted yet. -/
theorem counted_fresh (hcursor : w.cursor = w.first) (hemitted : w.emitted = 0) (hlost : w.lost = 0) :
    distance w.first w.cursor = w.emitted + w.lost ∧ w.emitted + w.lost ≤ roundsBetween w.first w.last := by
  rw [hcursor, hemitted, hlost, distance_self]
  omega

theorem counted_draining_fresh (hcursor : w.cursor = w.first) (hemitted : w.emitted = 0) (hlost : w.lost = 0) :
    Counted (draining w) := by
  refine counted_draining (fun _ => counted_fresh hcursor hemitted hlost) fun hafter => ?_
  rw [hcursor] at hafter
  rw [hemitted, hlost, roundsBetween_of_after hafter]

theorem counted_opened_fresh (hstate : w.state = .opened) (hcursor : w.cursor = w.first) (hemitted : w.emitted = 0)
    (hlost : w.lost = 0) : Counted w := by
  have hlive : live w = true := by simp [live, hstate]
  rw [Counted, if_pos hlive]
  exact counted_fresh hcursor hemitted hlost

theorem counted_placedWindow (s : State) (hstate : w.state = .opened) (hcursor : w.cursor = w.first)
    (hemitted : w.emitted = 0) (hlost : w.lost = 0) : Counted (placedWindow s w) := by
  have hopened := counted_opened_fresh hstate hcursor hemitted hlost
  rw [placedWindow_cases]
  cases s.engine.frontier with
  | none =>
    dsimp only
    split
    · exact counted_draining_fresh hcursor hemitted hlost
    · exact hopened
  | some y =>
    dsimp only
    split
    · exact counted_draining_fresh hcursor hemitted hlost
    · split
      · exact counted_draining_fresh hcursor hemitted hlost
      · exact hopened

/-- R107: an emitted round leaves the rounds to count one fewer. -/
theorem remaining_emitted (k : Nat) (hrounds : hasRounds w = true) : remaining (emitted k w) = remaining w - 1 := by
  rw [emitted_eq_closeIfDone, remaining_closeIfDone]
  exact remaining_advance w (cursorEmitted k w) 1 rfl rfl (by simp [remaining, hrounds])

/-- Settles O33. -/
theorem skipsCountEveryRound : Obligations.SkipsCountEveryRound := by
  refine ⟨fun s w hlaw => ?_, fun w hcounted => ⟨fun k hreach => ?_, counted_truncateWindow hcounted,
    counted_abortWindow hcounted, fun l hopen hle hhalf hemitted =>
      counted_shortenWindow hcounted hopen hle hhalf hemitted⟩, fun s q id => ?_⟩
  · obtain ⟨-, horder, -⟩ := ((streamLaw_iff s).mp hlaw).1
    have hemit : ∀ k, hasRounds w = true →
        (emitted k w).emitted + remaining (emitted k w) = w.emitted + remaining w ∧ (emitted k w).lost = w.lost := by
      intro k hrounds
      have hleft : remaining w ≠ 0 := by simp [remaining, hrounds]
      rw [remaining_emitted k hrounds, emitted_eq]
      exact ⟨by dsimp only; omega, rfl⟩
    refine ⟨settled_settleSkip horder w, ?_⟩
    obtain hsame | ⟨hreach, hemitted, k, hmove⟩ := settleSkip_advances s.store w
    · rw [hsame]
      exact ⟨rfl, rfl, hemit, rfl, rfl, id⟩
    · have hcounted := hmove.counted
      have hwithin := hmove.within
      rw [hmove.left]
      exact ⟨hemitted, by omega, hemit, hmove.last, hmove.first, hmove.keeps_counted hreach⟩
  · exact (emitted_advances k hreach).keeps_counted hreach hcounted
  · exact counted_placedWindow s rfl rfl rfl rfl

end Sys2Proof.Machine
end

section
/-! R101 to R107: the turns of a service pass, and which window it serves. -/

namespace Sys2Proof.Machine

open Stated

variable {s t : State}

/-! ## One turn -/

/-- R106, R107: the turn that serves window `w`. -/
def serveTurn (s : State) (w : Window) : State ⊕ State :=
  match roundReady s w with
  | none => .inl (engineOffer s (.head (headOf w)))
  | some [] => .inr (updateWindow s w.id (emitted 0))
  | some (x :: g) => .inl (engineOffer s (.group (x :: g)))

/-- One turn of a service pass: the pass stops (`inl`) or goes on (`inr`) with the state given. -/
def passTurn (s : State) : State ⊕ State :=
  match s.engine.pass with
  | none => .inl s
  | some p =>
    match s.engine.windows.find? (fun w => decide (w.state = .closing)) with
    | some w =>
      if w.headSent then .inl (engineOffer s (.tail (tailOf w)))
      else .inr (discardWindows s fun x => decide (x = w))
    | none =>
      match p.stage with
      | .settling =>
        if s.engine.balance = 0 then .inr (setStage (settleSkips s) p .serving) else .inl (endPass s)
      | .serving =>
        match pickReady s with
        | none => .inl (endPass s)
        | some w => serveTurn s w

/-- What follows a turn. -/
def afterTurn (go : State → State) (turn : State ⊕ State) : State := turn.elim id go

theorem runPass_succ (n : Nat) (s : State) : runPass (n + 1) s = afterTurn (runPass n) (passTurn s) := by
  rw [runPass, passTurn]
  cases s.engine.pass with
  | none => rfl
  | some p =>
    dsimp only
    cases s.engine.windows.find? (fun w => decide (w.state = .closing)) with
    | some w =>
      dsimp only
      cases w.headSent <;> rfl
    | none =>
      dsimp only
      cases p.stage with
      | settling =>
        dsimp only
        by_cases hb : s.engine.balance = 0
        · rw [if_pos hb, if_pos hb]
          rfl
        · rw [if_neg hb, if_neg hb]
          rfl
      | serving =>
        dsimp only
        cases pickReady s with
        | none => rfl
        | some w =>
          dsimp only
          rw [serveTurn]
          cases roundReady s w with
          | none => rfl
          | some g => cases g <;> rfl

/-! ## The turns of each kind -/

theorem turn_closing_headed {p : Pass} {w : Window} (hpass : s.engine.pass = some p)
    (hfirst : s.engine.windows.find? (fun w => decide (w.state = .closing)) = some w) (hhead : w.headSent = true) :
    passTurn s = .inl (engineOffer s (.tail (tailOf w))) := by
  unfold passTurn
  rw [hpass]
  dsimp only
  rw [hfirst]
  dsimp only
  rw [hhead, if_pos rfl]

theorem turn_closing_headless {p : Pass} {w : Window} (hpass : s.engine.pass = some p)
    (hfirst : s.engine.windows.find? (fun w => decide (w.state = .closing)) = some w) (hhead : w.headSent = false) :
    passTurn s = .inr (discardWindows s fun x => decide (x = w)) := by
  unfold passTurn
  rw [hpass]
  dsimp only
  rw [hfirst]
  dsimp only
  rw [hhead, if_neg nofun]

theorem turn_settling {p : Pass} (hpass : s.engine.pass = some p)
    (hfirst : s.engine.windows.find? (fun w => decide (w.state = .closing)) = none) (hstage : p.stage = .settling) :
    passTurn s = if s.engine.balance = 0 then .inr (setStage (settleSkips s) p .serving) else .inl (endPass s) := by
  unfold passTurn
  rw [hpass]
  dsimp only
  rw [hfirst]
  dsimp only
  rw [hstage]

theorem turn_serving {p : Pass} (hpass : s.engine.pass = some p)
    (hfirst : s.engine.windows.find? (fun w => decide (w.state = .closing)) = none) (hstage : p.stage = .serving) :
    passTurn s = (pickReady s).elim (.inl (endPass s)) (serveTurn s) := by
  unfold passTurn
  rw [hpass]
  dsimp only
  rw [hfirst]
  dsimp only
  rw [hstage]
  cases pickReady s <;> rfl

/-! ## A pass needs no more turns than it has left -/

theorem turnsLeft_discard {w : Window} (hw : w ∈ s.engine.windows) :
    turnsLeft (discardWindows s fun x => decide (x = w)) < turnsLeft s := by
  have hshorter : (s.engine.windows.filter fun x => !decide (x = w)).length < s.engine.windows.length :=
    List.length_filter_lt_length_iff_exists.mpr ⟨w, hw, by simp⟩
  have hsum := sum_filter_le s.engine.windows fun x => !decide (x = w)
  simp only [turnsLeft, discardWindows_engine]
  omega

theorem turnsLeft_settle {p : Pass} (hpass : s.engine.pass = some p) (hstage : p.stage = .settling) :
    turnsLeft (setStage (settleSkips s) p .serving) < turnsLeft s := by
  have hsum := sum_map_le s.engine.windows (settleSkip s.store) fun w _ => remaining_settleSkip s.store w
  have hwindows : (setStage (settleSkips s) p .serving).engine.windows =
    s.engine.windows.map (settleSkip s.store) := rfl
  have hlater : (setStage (settleSkips s) p .serving).engine.pass = some { p with stage := .serving } := rfl
  rw [turnsLeft, turnsLeft, hwindows, hlater, hpass, List.length_map]
  dsimp only
  rw [hstage, if_pos rfl, if_neg nofun]
  omega

theorem turnsLeft_emit {w : Window} (hids : (windowIds s.engine.windows).Nodup) (hw : w ∈ s.engine.windows)
    (hrounds : hasRounds w = true) : turnsLeft (updateWindow s w.id (emitted 0)) < turnsLeft s := by
  have hfewer := remaining_emitted 0 hrounds
  have hpositive : 0 < remaining w := by simp [remaining, hrounds]
  have hsum := sum_map_lt s.engine.windows (fun x => if x.id = w.id then emitted 0 x else x)
    (fun x hx => by
      split
      · rename_i hid
        rw [eq_of_id hids hx hw hid, hfewer]
        omega
      · exact le_rfl) w hw (by rw [if_pos rfl, hfewer]; omega)
  have hwindows : (updateWindow s w.id (emitted 0)).engine.windows =
    s.engine.windows.map (fun x => if x.id = w.id then emitted 0 x else x) := rfl
  have hpass : (updateWindow s w.id (emitted 0)).engine.pass = s.engine.pass := rfl
  rw [turnsLeft, turnsLeft, hwindows, hpass, List.length_map]
  omega

/-- R101: a turn after which the pass goes on leaves it less to do. -/
theorem turn_goes_on (hids : (windowIds s.engine.windows).Nodup) (hturn : passTurn s = .inr t) :
    (windowIds t.engine.windows).Nodup ∧ turnsLeft t < turnsLeft s := by
  cases hpass : s.engine.pass with
  | none =>
    unfold passTurn at hturn
    rw [hpass] at hturn
    cases hturn
  | some p =>
    cases hfirst : s.engine.windows.find? (fun w => decide (w.state = .closing)) with
    | some w =>
      cases hhead : w.headSent
      · rw [turn_closing_headless hpass hfirst hhead] at hturn
        obtain rfl := Sum.inr.inj hturn
        exact ⟨hids.sublist (List.filter_sublist.map _), turnsLeft_discard (List.mem_of_find?_eq_some hfirst)⟩
      · rw [turn_closing_headed hpass hfirst hhead] at hturn
        cases hturn
    | none =>
      cases hstage : p.stage with
      | settling =>
        rw [turn_settling hpass hfirst hstage] at hturn
        split at hturn
        · obtain rfl := Sum.inr.inj hturn
          exact ⟨(windowIds_map (settleSkip_keepsSlots s.store)).symm ▸ hids, turnsLeft_settle hpass hstage⟩
        · cases hturn
      | serving =>
        rw [turn_serving hpass hfirst hstage] at hturn
        cases hpick : pickReady s with
        | none =>
          rw [hpick] at hturn
          cases hturn
        | some w =>
          rw [hpick, Option.elim_some, serveTurn] at hturn
          split at hturn
          · cases hturn
          · rename_i hround
            obtain rfl := Sum.inr.inj hturn
            exact ⟨(windowIds_map ((emitted_keepsSlots 0).update w.id)).symm ▸ hids,
              turnsLeft_emit hids (pickReady_mem hpick).1 (roundReady_has hround).1⟩
          · cases hturn

/-- R101: turns that a pass does not take change nothing. -/
theorem runPass_enough : ∀ (n m : Nat) (s : State), (windowIds s.engine.windows).Nodup → turnsLeft s < n →
    turnsLeft s < m → runPass n s = runPass m s := by
  intro n
  induction n with
  | zero => exact fun m s _ hn => absurd hn (Nat.not_lt_zero _)
  | succ n ih =>
    intro m s hids hn hm
    obtain ⟨m, rfl⟩ := Nat.exists_eq_add_one_of_ne_zero (Nat.ne_zero_of_lt hm)
    rw [runPass_succ, runPass_succ]
    cases hturn : passTurn s with
    | inl t => rfl
    | inr t =>
      obtain ⟨hids', hless⟩ := turn_goes_on hids hturn
      exact ih m t hids' (by omega) (by omega)

theorem turnsLeft_lt_passFuel (s : State) : turnsLeft s < passFuel s := by
  unfold turnsLeft passFuel
  split
  · split <;> omega
  · omega

/-- R101: a pass is a turn and then, if it goes on, a pass. -/
theorem resumePass_turn (hids : (windowIds s.engine.windows).Nodup) :
    resumePass s = afterTurn resumePass (passTurn s) := by
  rw [resumePass, runPass_enough _ (turnsLeft s + 1) s hids (turnsLeft_lt_passFuel s) (Nat.lt_succ_self _),
    runPass_succ]
  cases hturn : passTurn s with
  | inl t => rfl
  | inr t =>
    obtain ⟨hids', hless⟩ := turn_goes_on hids hturn
    exact runPass_enough _ _ t hids' hless (turnsLeft_lt_passFuel t)

theorem resumePass_stop (hids : (windowIds s.engine.windows).Nodup) (hturn : passTurn s = .inl t) :
    resumePass s = t := by
  rw [resumePass_turn hids, hturn]
  rfl

theorem resumePass_go (hids : (windowIds s.engine.windows).Nodup) (hturn : passTurn s = .inr t) :
    resumePass s = resumePass t := by
  rw [resumePass_turn hids, hturn]
  rfl

/-! ## The window served (R105) -/

/-- Of equal keys the earlier element is taken: the least of a filtered list within the whole. -/
theorem firstLeast_filter {α : Type} (key : α → Nat) (p : α → Bool) : ∀ (l : List α) (w : α),
    firstLeast key (l.filter p) = some w → ∃ older younger, l = older ++ w :: younger ∧ p w = true ∧
      (∀ x ∈ older, p x = true → key w < key x) ∧ (∀ x ∈ younger, p x = true → key w ≤ key x) := by
  intro l
  induction l with
  | nil => exact fun w hw => nomatch hw
  | cons a l ih =>
    intro w hw
    cases ha : p a
    · rw [List.filter_cons_of_neg (by simp [ha])] at hw
      obtain ⟨older, younger, rfl, hp, holder, hyounger⟩ := ih w hw
      refine ⟨a :: older, younger, rfl, hp, List.forall_mem_cons.mpr ⟨fun hpa => ?_, holder⟩, hyounger⟩
      exact absurd (ha.symm.trans hpa) nofun
    · rw [List.filter_cons_of_pos ha] at hw
      obtain ⟨-, hleast⟩ := firstLeast_spec key _ w hw
      have hfirst (haw : a = w) : ∃ older younger, a :: l = older ++ w :: younger ∧ p w = true ∧
          (∀ x ∈ older, p x = true → key w < key x) ∧ (∀ x ∈ younger, p x = true → key w ≤ key x) :=
        ⟨[], l, haw ▸ rfl, haw ▸ ha, by simp, fun x hx hpx =>
          hleast x (List.mem_cons_of_mem a (List.mem_filter.mpr ⟨hx, hpx⟩))⟩
      rw [firstLeast] at hw
      split at hw
      · exact hfirst (Option.some.inj hw)
      · rename_i y hy
        split at hw
        · exact hfirst (Option.some.inj hw)
        · rename_i hless
          obtain rfl := Option.some.inj hw
          obtain ⟨older, younger, rfl, hp, holder, hyounger⟩ := ih y hy
          exact ⟨a :: older, younger, rfl, hp,
            List.forall_mem_cons.mpr ⟨fun _ => Nat.not_le.mp hless, holder⟩, hyounger⟩

theorem firstLeast_isSome {α : Type} (key : α → Nat) : ∀ {l : List α}, l ≠ [] → (firstLeast key l).isSome = true
  | [], hne => absurd rfl hne
  | a :: l, _ => by
    rw [firstLeast]
    split
    · rfl
    · split <;> rfl

/-- R105: a pass serves a window as long as one is ready. -/
theorem pickReady_eq_none (hnone : ∀ w ∈ s.engine.windows, isReady s w = false) : pickReady s = none := by
  have hempty : s.engine.windows.filter (isReady s) = [] :=
    List.filter_eq_nil_iff.mpr fun w hw => Bool.eq_false_iff.mp (hnone w hw)
  unfold pickReady
  rw [hempty]
  cases s.store.spanStart <;> rfl

/-- R105: the ready window served is the least by the distance from span start, and of several the first. -/
theorem pickReady_spec {w : Window} (hpick : pickReady s = some w) :
    ∃ older younger, s.engine.windows = older ++ w :: younger ∧ isReady s w = true ∧
      (∀ x ∈ older, isReady s x = true → ∃ o, s.store.spanStart = some o ∧ distance o w.cursor < distance o x.cursor) ∧
      (∀ x ∈ younger, isReady s x = true →
        ∀ o, s.store.spanStart = some o → distance o w.cursor ≤ distance o x.cursor) := by
  unfold pickReady at hpick
  dsimp only at hpick
  cases hspan : s.store.spanStart with
  | none =>
    rw [hspan] at hpick
    dsimp only at hpick
    rw [List.head?_filter, List.find?_eq_some_iff_append] at hpick
    obtain ⟨hready, older, younger, hsplit, holder⟩ := hpick
    refine ⟨older, younger, hsplit, hready, fun x hx hready => ?_, fun x _ _ o ho => nomatch ho⟩
    exact absurd hready (by simpa using holder x hx)
  | some p =>
    rw [hspan] at hpick
    obtain ⟨older, younger, hsplit, hready, holder, hyounger⟩ := firstLeast_filter _ _ _ w hpick
    refine ⟨older, younger, hsplit, hready, fun x hx hready => ⟨p, rfl, holder x hx hready⟩, fun x hx hready o ho => ?_⟩
    obtain rfl := Option.some.inj ho
    exact hyounger x hx hready

theorem exists_pickReady {w : Window} (hw : w ∈ s.engine.windows) (hready : isReady s w = true) :
    ∃ v, pickReady s = some v := by
  have hne : s.engine.windows.filter (isReady s) ≠ [] := List.ne_nil_of_mem (List.mem_filter.mpr ⟨hw, hready⟩)
  unfold pickReady
  cases s.store.spanStart with
  | none => exact ⟨_, List.head?_eq_some_head hne⟩
  | some p => exact Option.isSome_iff_exists.mp (firstLeast_isSome _ hne)

/-! ## Round ready (R105, R107) -/

theorem groupOf_eq (w : Window) (x : Record) : groupOf w x = (List.finRange 16).filterMap fun i =>
    if w.mask.getLsbD i.val then (x.values.get i).map fun v =>
      { id := w.id, round := x.round, channel := i, value := v, complete := x.complete }
    else none := by
  unfold groupOf channelsOf
  rw [List.filterMap_filter]

theorem classify_of_heldRecord {h : Store} {r : Round} {x : Record} (hx : heldRecord h r = some x) :
    classify h r = .held := by
  obtain ⟨o, n, ho, hn⟩ := exists_ends (List.mem_of_find?_eq_some hx)
  rw [classify_eq ho hn, hx]
  rfl

theorem withinFrontier_iff {w : Window} :
    withinFrontier s w = true ↔ ∃ f, s.engine.frontier = some f ∧ atOrAfter f w.cursor = true := by
  unfold withinFrontier
  cases s.engine.frontier <;> simp

theorem groupFits_iff {g : List WinSample} :
    groupFits s g = true ↔ g = [] ∨ occupancy s.egress + g.length ≤ 240 := by
  unfold groupFits
  rw [Bool.or_eq_true, List.isEmpty_iff, decide_eq_true_iff]
  rfl

theorem roundReady_iff {w : Window} {g : List WinSample} : roundReady s w = some g ↔
    live w = true ∧ w.headSent = true ∧ atOrAfter w.last w.cursor = true ∧
      (∃ f, s.engine.frontier = some f ∧ atOrAfter f w.cursor = true) ∧
      (g = [] ∨ occupancy s.egress + g.length ≤ 240) ∧
      ∃ x, heldRecord s.store w.cursor = some x ∧ g = groupOf w x := by
  rw [← withinFrontier_iff, ← groupFits_iff, ← inProgress_eq_live]
  unfold roundReady
  constructor
  · intro hready
    split at hready
    · rename_i hall
      simp only [Bool.and_eq_true, decide_eq_true_iff] at hall
      obtain ⟨⟨⟨⟨hlive, hhead⟩, hrounds⟩, hfrontier⟩, -⟩ := hall
      split at hready
      · rename_i x hx
        split at hready
        · rename_i hfits
          obtain rfl := Option.some.inj hready
          exact ⟨hlive, hhead, hrounds, hfrontier, hfits, x, hx, rfl⟩
        · cases hready
      · cases hready
    · cases hready
  · rintro ⟨hlive, hhead, hrounds, hfrontier, hfits, x, hx, rfl⟩
    have hrounds' : hasRounds w = true := hrounds
    rw [hlive, hhead, hrounds', hfrontier, classify_of_heldRecord hx, hx]
    exact if_pos hfits

theorem countP_isBehind (s : State) :
    (s.engine.windows.filter fun w => isBehind s.store w && !w.flags.truncated).length =
    s.engine.windows.countP fun w => live w && atOrAfter w.last w.cursor &&
      decide (classify s.store w.cursor = .behind) && !w.flags.truncated := by
  rw [List.countP_eq_length_filter]
  simp only [isBehind, inProgress_eq_live, hasRounds]

theorem discardWindows_one {w : Window} (hids : (windowIds s.engine.windows).Nodup) (hw : w ∈ s.engine.windows) :
    discardWindows s (fun x => decide (x = w)) = { s with
      engine := { s.engine with windows := s.engine.windows.filter fun x => decide (x ≠ w) }
      counters := { s.counters with windowsDiscarded := raise s.counters.windowsDiscarded 1 } } := by
  have hone : (s.engine.windows.filter fun x => decide (x = w)).length = 1 := by
    rw [← List.countP_eq_length_filter]
    exact (List.countP_congr fun x _ => by simp).trans
      (List.count_eq_one_of_mem (List.Nodup.of_map Window.id hids) hw)
  unfold discardWindows
  simp only [hone, ← decide_not, ne_eq]

/-- Settles O31. -/
theorem servicePassTurns : Obligations.ServicePassTurns := by
  refine ⟨fun s p hlaw hpass => ?_, fun s w => ⟨?_, ?_, fun g => ?_⟩⟩
  · have hids : (windowIds s.engine.windows).Nodup := hlaw.2
    refine ⟨fun w hfirst hhead => resumePass_stop hids (turn_closing_headed hpass hfirst hhead),
      fun w hfirst hhead => ?_, fun hfirst hstage hb => ?_, fun hfirst hstage hb hstream => ?_,
      fun hfirst hstage hnone => ?_, fun hfirst hstage hsome => ?_⟩
    · rw [resumePass_go hids (turn_closing_headless hpass hfirst hhead),
        discardWindows_one hids (List.mem_of_find?_eq_some hfirst)]
    · exact resumePass_stop hids ((turn_settling hpass hfirst hstage).trans (if_neg hb))
    · obtain ⟨-, horder, -⟩ := ((streamLaw_iff s).mp hstream).1
      refine ⟨settleSkip s.store, settled_settleSkip horder, ?_⟩
      rw [resumePass_go hids ((turn_settling hpass hfirst hstage).trans (if_pos hb)), ← countP_isBehind]
      rfl
    · refine resumePass_stop hids ((turn_serving hpass hfirst hstage).trans ?_)
      rw [pickReady_eq_none hnone]
      rfl
    · obtain ⟨v, hv, hready⟩ := hsome
      obtain ⟨w, hpick⟩ := exists_pickReady hv hready
      obtain ⟨older, younger, hsplit, hready, holder, hyounger⟩ := pickReady_spec hpick
      have hturn := turn_serving hpass hfirst hstage
      rw [hpick, Option.elim_some, serveTurn] at hturn
      refine ⟨older, w, younger, hsplit, hready, holder, hyounger, fun hround => resumePass_stop hids ?_,
        fun x g hround => resumePass_stop hids ?_, fun hround => resumePass_go hids ?_⟩
      · rw [hturn, hround]
        rfl
      · rw [hturn, hround]
        rfl
      · rw [hturn, hround]
        rfl
  · rw [isReady, Bool.or_eq_true, Option.isSome_iff_ne_none]
  · rw [headReady_iff, inProgress_eq_live]
    rfl
  · rw [roundReady_iff]
    simp only [groupOf_eq]
    rfl

end Sys2Proof.Machine
end

section
/-! R120 to R131: the Output Line Unit. -/

namespace Sys2Proof.Machine

open Stated

variable {s t : State}

/-! ## Line states -/

theorem expirePulse_eq (r : Round) (st : LineState) : expirePulse r st = expired st r := by
  cases st with
  | pulsing e => rfl
  | levelled => rfl
  | inactive => rfl

theorem flipLine_eq (st : LineState) : flipLine st = toggled st := by cases st <;> rfl

theorem endPulse_eq (st : LineState) : endPulse st = pulseEnded st := by cases st <;> rfl

theorem names_iff (acts : List LineOp) (a : LineAction) : names acts a = true ↔ ∃ x ∈ acts, x.action = a := by
  simp [names]

theorem longestPulse_eq (acts : List LineOp) : longestPulse acts =
    ((acts.filter fun x => decide (x.action = .pulse)).map LineOp.length).foldr max 0 :=
  List.foldl_eq_foldr ..

/-- R123, Table 6-3. -/
theorem combineActions_eq (r : Round) (acts : List LineOp) (st : LineState) :
    combineActions r acts st = combined st r acts := by
  unfold combineActions combined
  refine if_congr (names_iff acts .clear) rfl (if_congr (names_iff acts .set) rfl
    (if_congr (names_iff acts .pulse) ?_ (if_congr Iff.rfl (flipLine_eq st) rfl)))
  rw [longestPulse_eq]
  cases st <;> rfl

theorem stepLine_quiet {e : LineEntry} {held : Bool} {r : Round} {acts : List LineOp} {st : LineState}
    (h : held = true ∨ e.enable = false ∨ acts = []) : stepLine e held r acts st = expired st r := by
  rw [stepLine, expirePulse_eq]
  obtain rfl | henable | rfl := h
  · rw [Bool.not_true, Bool.and_false, if_neg nofun]
  · rw [henable, Bool.false_and, if_neg nofun]
  · split <;> rfl

theorem stepLine_combined {e : LineEntry} {r : Round} {acts : List LineOp} {st : LineState}
    (henable : e.enable = true) :
    stepLine e false r acts st = combined (expired st r) r acts := by
  rw [stepLine, expirePulse_eq, henable]
  exact combineActions_eq r acts _

/-- Settles O36. -/
theorem lineStepExpiresThenCombines : Obligations.LineStepExpiresThenCombines := by
  intro s x rest hfront
  refine ⟨Vector.ofFn fun n => stepLine (s.lines.entries.get n) s.lines.held x.round (actionsFor x n)
    (s.lines.lines.get n), congrArg Host.Outcome.next ?_, fun n => ⟨fun hquiet => ?_, fun hheld henable _ => ?_⟩⟩
  · rw [takeLineStep, hfront]
    rfl
  · rw [get_ofFn]
    exact stepLine_quiet hquiet
  · rw [get_ofFn, hheld]
    exact stepLine_combined henable

/-! ## Notices -/

theorem commandLine_eq (a : LineCommand) (st : LineState) :
    commandLine a st = if a = .clear then .inactive else if a = .set then .levelled else toggled st := by
  cases a
  · rfl
  · rfl
  · exact flipLine_eq st

theorem allInactive_eq (s : State) :
    allInactive s = { s with lines := { s.lines with lines := Vector.replicate 8 .inactive } } := by
  have hquiet : Vector.ofFn (fun _ : Fin 8 => LineState.inactive) = Vector.replicate 8 .inactive := by decide
  unfold allInactive changeLines
  rw [hquiet]

theorem changeLines_endPulse (s : State) : changeLines s (fun _ st => endPulse st) =
    { s with lines := { s.lines with lines := Vector.ofFn fun n : Fin 8 => pulseEnded (s.lines.lines.get n) } } := by
  unfold changeLines
  simp only [endPulse_eq]

/-- Settles O37. -/
theorem linesTakeNotices : Obligations.LinesTakeNotices := by
  refine ⟨fun s rest => ⟨fun n a hfront => ⟨fun hheld => ?_, fun hheld henable => ?_, fun hheld henable => ?_⟩,
    fun hfront => ?_, fun hfront => ?_, fun hfront => ?_⟩, fun s rest => ⟨fun hfront => ?_, fun hfront => ?_,
    fun m hfront => ?_, fun hfront => ?_⟩⟩
  all_goals refine congrArg Host.Outcome.next ?_
  · have hout : lineOutcome s.lines n = .refused := by rw [lineOutcome, hheld]; rfl
    rw [takeLineNotice, hfront]
    simp only [handleLineNotice, linesTakeNotice, hout, if_neg (show ¬ LineOutcome.refused = .applied from nofun)]
    rfl
  · have hout : lineOutcome s.lines n = .ignored := by rw [lineOutcome, hheld, henable]; rfl
    rw [takeLineNotice, hfront]
    simp only [handleLineNotice, linesTakeNotice, hout, if_neg (show ¬ LineOutcome.ignored = .applied from nofun)]
    rfl
  · have hout : lineOutcome s.lines n = .applied := by rw [lineOutcome, hheld, henable]; rfl
    rw [takeLineNotice, hfront]
    simp only [handleLineNotice, linesTakeNotice, hout, changeLines, commandLine_eq, if_true, ite_not, ne_eq]
    rfl
  · rw [takeLineSafeState, hfront]
    dsimp only
    rw [allInactive_eq]
    rfl
  · rw [takeLineSessionOpen, hfront]
    rfl
  · rw [takeLineClose, hfront]
    dsimp only
    rw [allInactive_eq]
    rfl
  · rw [takeLineLost, hfront]
    exact changeLines_endPulse _
  · rw [takeLineRestart, hfront]
    dsimp only
    rw [changeLines_endPulse]
    rfl
  · rw [takeLineMark, hfront]
    rfl
  · rw [takeLineNodeReset, hfront]
    dsimp only
    rw [allInactive_eq]
    rfl

end Sys2Proof.Machine
end

section
/-! R135 to R148: the Egress Queue's answers to offers, its transmissions, credits and settings. -/

namespace Sys2Proof.Machine

open Stated

variable {s t : State}

/-! ## Offers -/

theorem admitEvent_eq (s : State) (e : EventCell) : admitEvent s e = eventAnswered s e := by
  unfold admitEvent eventAnswered eventEnabled
  cases s.egress.eventMask.getLsbD (eventCode e.code - 1) <;> rfl

/-- R140: a reply taken while none waits. -/
theorem offerReply_eq (c : ReplyCell) (hwait : s.egress.waitingReply = none) : offerReply s c =
    if occupancy s.egress < 250 then replyAdmitted s c
    else { s with egress := { s.egress with waitingReply := some c } } := by
  rw [offerReply, admitReply_spec, replyAdmitted, ← hwait]
  rfl

theorem takeReplyOffer_waits (h : s.egress.waitingReply ≠ none ∨ s.paths.settings ≠ []) : takeReplyOffer s = s := by
  unfold takeReplyOffer
  split
  · rename_i hwait hsettings _
    exact h.elim (absurd hwait) (absurd hsettings)
  · rfl

/-- Settles O39. -/
theorem offersAnsweredByLimit : Obligations.OffersAnsweredByLimit := by
  intro s
  refine ⟨fun c rest hfront => ?_, fun c rest hfront => ?_, fun e rest hfront => ?_, fun e rest hfront => ?_,
    fun e rest hfront => ?_, fun e rest hfront => ?_, fun hwait => congrArg _ (takeReplyOffer_waits hwait),
    fun c rest hwait hsettings hfront => ?_⟩
  all_goals refine congrArg Host.Outcome.next ?_
  · rw [takeLiveOffer, hfront]
    rfl
  · rw [takeRelayOffer, hfront]
    rfl
  · rw [takeEventOffer, hfront]
    exact admitEvent_eq _ e
  · rw [takeEventOffer, hfront]
    exact admitEvent_eq _ e
  · rw [takeEventOffer, hfront]
    exact admitEvent_eq _ e
  · rw [takeEventOffer, hfront]
    exact admitEvent_eq _ e
  · rw [takeReplyOffer, hwait, hsettings, hfront]
    refine offerReply_eq c ?_
    exact hwait

/-! ## Transmission (R141, R142) -/

theorem startNotices_eq (c : EgressCell) : startNotices c = match c with
    | .window (.tail x) => [.tailTransmitted x.id, .room]
    | _ => [.room] := by
  cases c with
  | window x => cases x <;> rfl
  | reply x => rfl
  | event x => rfl
  | relay x => rfl
  | live x => rfl

theorem admitWaiting_none (h : s.egress.waitingReply = none) : admitWaiting s = s := by
  rw [admitWaiting, h]

theorem admitWaiting_some {r : ReplyCell} (h : s.egress.waitingReply = some r) :
    admitWaiting s = if occupancy s.egress < 250 then replyAdmitted s r else s := by
  rw [admitWaiting, h]
  rfl

/-- R142, steps 1 to 5: cell `c` is in transmission, and `q` is the queue left. -/
def inTransmission (s : State) (c : EgressCell) (q : Egress) : State :=
  { s with
    egress := { q with
      sending := some { seq := s.egress.nextSeq, cell := c }
      credits := s.egress.credits - 1
      nextSeq := s.egress.nextSeq + 1 }
    counters := { s.counters with cellsTransmitted := raise s.counters.cellsTransmitted 1 } }

theorem startSending_inTransmission (s : State) (c : EgressCell) (q : Egress) : startSending s c q =
    { admitWaiting (inTransmission s c q) with
      paths := { (admitWaiting (inTransmission s c q)).paths with
        queueToEngine := (admitWaiting (inTransmission s c q)).paths.queueToEngine ++ startNotices c } } := rfl

/-- R142, step 6: a reply that waits joins the queue where the start leaves room for it. -/
theorem startSending_eq {c : EgressCell} {q : Egress} (hwait : q.waitingReply = s.egress.waitingReply) :
    startSending s c q = started s c q := by
  have hwaiting : (inTransmission s c q).egress.waitingReply = s.egress.waitingReply := hwait
  have hoccupancy : occupancy (inTransmission s c q).egress = occupancy q := rfl
  rw [startSending_inTransmission, startNotices_eq]
  unfold started
  cases hreply : s.egress.waitingReply with
  | none =>
    rw [admitWaiting_none (hwaiting.trans hreply)]
    rfl
  | some r =>
    rw [admitWaiting_some (hwaiting.trans hreply), hoccupancy]
    dsimp only
    split <;> rfl

theorem startTransmission_start {c : EgressCell} {q : Egress} (hidle : s.egress.sending = none)
    (hcredit : 0 < s.egress.credits) (hchoose : chooseCell s.egress = some (c, q))
    (hwait : q.waitingReply = s.egress.waitingReply) : startTransmission s = started s c q := by
  rw [startTransmission, hidle, hchoose]
  exact (if_pos hcredit).trans (startSending_eq hwait)

theorem chooseCell_empty {q : Egress} (hempty : occupancy q = 0) : chooseCell q = none := by
  obtain ⟨replies, events, windows, relays, lives⟩ := q
  simp only [occupancy, Nat.add_eq_zero_iff, List.length_eq_zero_iff] at hempty
  obtain ⟨⟨⟨⟨rfl, rfl⟩, rfl⟩, rfl⟩, rfl⟩ := hempty
  rfl

/-- R141: without an idle transmitter, a credit or a cell nothing starts. -/
theorem startTransmission_stays (h : s.egress.sending ≠ none ∨ s.egress.credits = 0 ∨ occupancy s.egress = 0) :
    startTransmission s = s := by
  unfold startTransmission
  split
  · rename_i c q hidle hchoose
    refine if_neg fun hcredit => ?_
    obtain hbusy | hzero | hempty := h
    · exact hbusy hidle
    · omega
    · exact absurd ((chooseCell_empty hempty).symm.trans hchoose) nofun
  · rfl

/-- Settles O40. -/
theorem transmissionTakesHighestClass : Obligations.TransmissionTakesHighestClass := by
  intro s
  refine ⟨fun hidle hcredit => ⟨fun c cs h => ?_, fun c cs h₁ h => ?_, fun c cs h₁ h₂ h => ?_,
    fun c cs h₁ h₂ h₃ h => ?_, fun c cs h₁ h₂ h₃ h₄ h => ?_⟩, fun h => congrArg _ (startTransmission_stays h),
    fun hclock => congrArg _ (if_pos hclock)⟩
  all_goals refine congrArg Host.Outcome.next (startTransmission_start hidle hcredit ?_ ?_)
  · rw [chooseCell, h]
  · rfl
  · rw [chooseCell, h₁, h]
  · rfl
  · rw [chooseCell, h₁, h₂, h]
  · rfl
  · rw [chooseCell, h₁, h₂, h₃, h]
  · rfl
  · rw [chooseCell, h₁, h₂, h₃, h₄, h]
  · rfl

/-! ## Credits and settings -/

theorem addCredits_within {n : Nat} (h : s.egress.credits + n ≤ 1023) :
    addCredits s n = { s with egress := { s.egress with credits := s.egress.credits + n } } := by
  have hmin : min (s.egress.credits + n) Config.creditLimit = s.egress.credits + n := Nat.min_eq_left h
  unfold addCredits
  dsimp only
  rw [hmin]
  exact if_pos h

theorem addCredits_over {n : Nat} (h : 1023 < s.egress.credits + n) :
    addCredits s n = eventAnswered { s with egress := { s.egress with credits := 1023 } }
      { code := .creditOverflow, round := none, a := BitVec.ofNat 32 (s.egress.credits + n - 1023),
        b := BitVec.ofNat 32 n, forced := false } := by
  have hmin : min (s.egress.credits + n) Config.creditLimit = 1023 := Nat.min_eq_right h.le
  unfold addCredits
  dsimp only
  rw [hmin, admitEvent_eq]
  exact if_neg (Nat.not_le.mpr h)

/-- Settles O41. -/
theorem creditsAndSettingsTaken : Obligations.CreditsAndSettingsTaken := by
  intro s
  refine ⟨fun n rest hfront => ⟨fun hfits => ?_, fun hover => ?_⟩, fun x rest hfront => ?_⟩
  all_goals refine congrArg Host.Outcome.next ?_
  · rw [takeCreditNotice, hfront]
    refine addCredits_within ?_
    exact hfits
  · rw [takeCreditNotice, hfront]
    refine addCredits_over ?_
    exact hover
  · rw [takeSettings, hfront]

end Sys2Proof.Machine
end

section
/-! R146, R156 to R158, R170 to R180: requests on arrival, the session, and the editing of STAGING. -/

namespace Sys2Proof.Machine

open Stated

variable {s t : State} {q : Request}

/-! ## Arrival (R170, R171) -/

theorem eq_fourteen_of_kindOf_credit {b : Byte} (h : kindOf b = some .credit) : b = 0x0E#8 := by
  unfold kindOf at h
  split at h <;> cases h
  exact BitVec.eq_of_toNat_eq ‹_›

theorem destinationOf_none {b : Byte} (hnode : b ≠ 0x00#8) (hfront : b ≠ 0x01#8) : destinationOf b = none := by
  unfold destinationOf
  split
  · exact absurd (BitVec.eq_of_toNat_eq ‹_›) hnode
  · exact absurd (BitVec.eq_of_toNat_eq ‹_›) hfront
  · rfl

theorem destinationOf_node (h : q.dest = 0x00#8) : destinationOf q.dest = some .node := by rw [h]; rfl

theorem destinationOf_front (h : q.dest = 0x01#8) : destinationOf q.dest = some .front := by rw [h]; rfl

theorem classifyArrival_malformed (hnode : q.dest ≠ 0x00#8) (hfront : q.dest ≠ 0x01#8) :
    classifyArrival s q = malformedRequest s := by
  rw [classifyArrival, destinationOf_none hnode hfront]

theorem classifyArrival_front (hdest : q.dest = 0x01#8) : classifyArrival s q = enqueued s q := by
  rw [classifyArrival, destinationOf_front hdest]
  rfl

theorem classifyArrival_credit (hdest : q.dest = 0x00#8) (hkind : q.kind = 0x0E#8) :
    classifyArrival s q = creditArrives s q.value.toNat := by
  rw [classifyArrival, destinationOf_node hdest, hkind]
  rfl

theorem classifyArrival_renew (hdest : q.dest = 0x00#8) (hkind : q.kind = 0x03#8) :
    classifyArrival s q = enqueued (renewArrives s) q := by
  rw [classifyArrival, destinationOf_node hdest, hkind]
  rfl

theorem classifyArrival_other (hdest : q.dest = 0x00#8) (hrenew : q.kind ≠ 0x03#8) (hcredit : q.kind ≠ 0x0E#8) :
    classifyArrival s q = enqueued s q := by
  rw [classifyArrival, destinationOf_node hdest]
  dsimp only
  split
  · exact absurd (eq_fourteen_of_kindOf_credit ‹_›) hcredit
  · exact absurd (eq_three_of_kindOf_renew ‹_›) hrenew
  · rfl

theorem elapse_paths (dt : Nat) : (elapse s dt).paths = s.paths := by rw [elapse_spec]

/-- Settles O45. -/
theorem requestClassifiedOnArrival : Obligations.RequestClassifiedOnArrival := by
  intro s dt q hclock
  have hexec {u : State} (h : classifyArrival (elapse s dt) q = u) : exec (.requestArrival dt q) s = .next u := by
    rw [← h]
    exact congrArg Host.Outcome.next (onLane_present hclock)
  have hbad : malformedRequest (elapse s dt) = { elapse s dt with
      counters := { s.counters with malformedRequests := raise s.counters.malformedRequests 1 } } := by
    rw [malformedRequest, elapse_counters]
  refine ⟨fun hnode hfront => hexec ?_, fun hdest hkind hone hmax => hexec ?_, fun hdest hkind hbounds => hexec ?_,
    fun hdest hkind hopen hperiod => hexec ?_, fun hdest hkind hnone => hexec ?_,
    fun hdest hrenew hcredit => hexec (classifyArrival_other hdest hrenew hcredit),
    fun hdest => hexec (classifyArrival_front hdest)⟩
  · exact (classifyArrival_malformed hnode hfront).trans hbad
  · rw [classifyArrival_credit hdest hkind, creditArrives, elapse_paths]
    exact if_pos ⟨hone, hmax⟩
  · rw [classifyArrival_credit hdest hkind, creditArrives, if_neg, hbad]
    have hlimit : Config.creditLimit = 1023 := rfl
    omega
  · rw [classifyArrival_renew hdest hkind, renewArrives, elapse_agent, if_pos ⟨hopen, hperiod⟩]
    rfl
  · rw [classifyArrival_renew hdest hkind, renewArrives, elapse_agent, if_neg]
    rintro ⟨hopen, hperiod⟩
    obtain hclosed | hzero := hnone
    · exact hclosed hopen
    · omega

/-! ## Service (R172 to R174) -/

theorem headToServe_of (h : AtService s q) : headToServe s = some q := by
  obtain ⟨hphase, hreset, hcommit, hhead⟩ := h
  rw [headToServe, if_pos ⟨hphase, hreset, hcommit⟩, hhead]

/-- R173: a service command of the head request's kind does its action. -/
theorem serve_of {k : Kind} {act : State → Request → State} (h : Serving s q k) : serve s k act = act s q := by
  obtain ⟨hservice, hdest, hkind⟩ := h
  rw [serve, headToServe_of hservice]
  exact if_pos ⟨destinationOf_node hdest, hkind⟩

theorem needsSession_opened {act : State → Request → State} (h : s.agent.session = .opened) :
    needsSession act s q = act s q := by
  rw [needsSession, h]

/-- R173, check 2. -/
theorem needsSession_refused {act : State → Request → State} {result : Result}
    (h : (s.agent.session = .closed ∧ result = .noSession) ∨ (s.agent.session = .expired ∧ result = .expired)) :
    needsSession act s q = replied s q result 0 0 := by
  obtain ⟨hsession, rfl⟩ | ⟨hsession, rfl⟩ := h <;> rw [needsSession, hsession] <;> rfl

/-- R173: a kind that needs the session, in an OPEN one. -/
theorem serve_opened {k : Kind} {act : State → Request → State} (h : Serving s q k)
    (hopen : s.agent.session = .opened) :
    serve s k (needsSession act) = act s q := (serve_of h).trans (needsSession_opened hopen)

/-- Settles O46. -/
theorem sessionNeededIsChecked : Obligations.SessionNeededIsChecked := by
  refine fun s q => ⟨fun hservice hdest hkind => congrArg Host.Outcome.next ?_, fun result hresult =>
    ⟨fun ck hck hserving => ?_, fun hservice hdest => congrArg Host.Outcome.next ?_⟩⟩
  · rw [serveUnknown, headToServe_of hservice]
    exact if_pos ⟨destinationOf_node hdest, hkind⟩
  · have hrefused {k : Kind} {act : State → Request → State} (h : Serving s q k) :
        Host.Outcome.next (serve s k (needsSession act)) =
          (Host.Outcome.next (replied s q result 0 0) : Host.Outcome State Fault Refusal) :=
      congrArg _ ((serve_of h).trans (needsSession_refused hresult))
    fin_cases hck <;> exact hrefused hserving
  · rw [serveFront, headToServe_of hservice]
    exact (if_pos (destinationOf_front hdest)).trans (needsSession_refused hresult)

/-! ## The session (R177 to R180) -/

theorem roundOrNone_eq (r : Option Round) : roundOrNone r = roundWord r := by cases r <;> rfl

theorem leaseRemaining_eq (s : State) : leaseRemaining s = leaseLeft s := by
  unfold leaseRemaining leaseLeft
  cases s.agent.leaseExpiry <;> rfl

/-- R177: a session that opens with lease period `l`. -/
theorem openWith_eq (s : State) (l : Nat) : openWith s l =
    if s.agent.session = .expired then { s with
      agent := { s.agent with
        session := .opened, leasePeriod := l
        leaseExpiry := if l = 0 then none else some (s.clock.localTimer + l * 1000) }
      paths := { s.paths with
        agentToTable := s.paths.agentToTable ++ [.sessionOpen]
        agentToLines := s.paths.agentToLines ++ [.sessionOpen]
        agentToEngine := s.paths.agentToEngine ++ [.sessionOpen] } }
    else { s with agent := { s.agent with
      session := .opened, leasePeriod := l
      leaseExpiry := if l = 0 then none else some (s.clock.localTimer + l * 1000) } } := by
  have hexpiry : (if 0 < l then some (expiryIn s l) else none) =
      if l = 0 then none else some (s.clock.localTimer + l * 1000) := by
    obtain rfl | hpos := Nat.eq_zero_or_pos l
    · rfl
    · rw [if_pos hpos, if_neg (Nat.pos_iff_ne_zero.mp hpos)]
      rfl
  rw [← hexpiry, openWith, sendSessionOpen]
  split <;> rfl

theorem leaseExpires_due {e : Nat} (hexpiry : s.agent.leaseExpiry = some e) (hdue : canExpire s e = true) :
    leaseExpires s = leaseRunsOut (reach s e) := by
  rw [leaseExpires, hexpiry]
  exact if_pos hdue

/-- Settles O47. -/
theorem sessionOpensClosesExpires : Obligations.SessionOpensClosesExpires := by
  refine fun s q => ⟨fun hserving => ⟨fun hopen => congrArg _ ((serve_of hserving).trans ?_),
    fun hnot hlong => congrArg _ ((serve_of hserving).trans ?_), fun hnot hfits =>
      congrArg _ ((serve_of hserving).trans ?_)⟩,
    fun hserving hopen => congrArg _ (serve_opened hserving hopen),
    fun hserving hopen => congrArg _ ((serve_opened hserving hopen).trans ?_),
    fun e hexpiry hclock hdue => congrArg _ (leaseExpires_due hexpiry (canExpire_iff.mpr ⟨hclock, hdue⟩)),
    fun hnone => congrArg Host.Outcome.next ?_⟩
  · rw [serveOpen, if_pos hopen]
    rfl
  · rw [serveOpen, if_neg hnot]
    exact if_pos hlong
  · rw [serveOpen, if_neg hnot]
    refine (if_neg (Nat.not_lt.mpr hfits)).trans ?_
    rw [openWith_eq]
    rfl
  · rw [serveRenew, leaseRemaining_eq]
    rfl
  · rw [leaseExpires, hnone]

/-! ## Editing STAGING (R156 to R158) -/

/-- Settles O49. -/
theorem writeAndRevertEditStaging : Obligations.WriteAndRevertEditStaging := by
  refine fun s q hopen => ⟨fun hserving b hwrite => congrArg _ ((serve_opened hserving hopen).trans ?_),
    fun hserving hwrite => congrArg _ ((serve_opened hserving hopen).trans ?_),
    fun hserving => congrArg _ (serve_opened hserving hopen)⟩
  · rw [serveWrite, hwrite]
    rfl
  · rw [serveWrite, hwrite]
    rfl

end Sys2Proof.Machine
end

section
/-! R159 to R165: commits. -/

namespace Sys2Proof.Machine

open Stated

variable {s t : State} {q : Request}

/-! ## The cross-field checks (R160, Table 8-6) -/

theorem head?_failed (check table index : Nat) (P : Prop) [Decidable P] :
    (failed check table index (decide P)).head? = if P then none else some (check, table, index) := by
  unfold failed
  by_cases hP : P
  · rw [if_pos hP, decide_eq_true hP]
    rfl
  · rw [if_neg hP, decide_eq_false hP]
    rfl

theorem channelFault_eq_failed (e : ChannelEntry) (i : Nat) : (channelFault e).map (fun k => (k, 0, i)) =
    (failed 1 0 i (decide (e.condition ∈ [.outside, .inside] → e.levelA.toInt ≤ e.levelB.toInt)) ++
      failed 2 0 i (decide (e.condition = .outside → 2 * (e.hysteresis : Int) ≤ e.levelB.toInt - e.levelA.toInt)) ++
      failed 3 0 i (decide (e.condition ∈ [.riseStep, .fallStep] → 0 ≤ e.levelA.toInt))).head? := by
  have hpair (a b : ConditionKind) : e.condition ∈ [a, b] ↔ e.condition = a ∨ e.condition = b := by simp
  rw [List.head?_append, List.head?_append, head?_failed, head?_failed, head?_failed]
  unfold channelFault
  simp only [hpair, ← Classical.not_imp, ite_not]
  split
  · split
    · split <;> rfl
    · rfl
  · rfl

theorem triggerFault_eq_failed (e : TriggerEntry) (i : Fin 8) : (triggerFault i e).map (fun k => (k, 1, i.val)) =
    (failed 4 1 i.val (decide (e.combine = .after → e.refEntry ≠ i)) ++
      failed 5 1 i.val (decide (e.combine = .width → e.widthMin ≤ e.widthMax))).head? := by
  have hafter : (e.combine = .after ∧ e.refEntry = i) ↔ ¬ (e.combine = .after → e.refEntry ≠ i) := by
    rw [Classical.not_imp, not_not]
  rw [List.head?_append, head?_failed, head?_failed]
  unfold triggerFault
  simp only [hafter, ← Classical.not_imp, ite_not]
  split
  · split <;> rfl
  · rfl

theorem profileFault_eq_failed (e : Profile) (i : Nat) : (profileFault e).map (fun k => (k, 2, i)) =
    (failed 6 2 i (decide (e.pre + e.post + 1 ≤ e.limit))).head? := by
  rw [head?_failed]
  unfold profileFault
  split <;> rfl

theorem firstFault_eq_failing (b : Bank) : firstFault b = (failing b).head? := by
  unfold firstFault failing
  simp only [channelFault_eq_failed, triggerFault_eq_failed, profileFault_eq_failed, List.head?_append,
    List.head?_flatMap, Option.or_assoc, Option.orElse_eq_orElse, Option.orElse_eq_or]

theorem channelFault_eq_none {e : ChannelEntry} : channelFault e = none ↔
    ((e.condition = .outside ∨ e.condition = .inside) → e.levelA.toInt ≤ e.levelB.toInt) ∧
    (e.condition = .outside → 2 * (e.hysteresis : Int) ≤ e.levelB.toInt - e.levelA.toInt) ∧
    ((e.condition = .riseStep ∨ e.condition = .fallStep) → 0 ≤ e.levelA.toInt) := by
  unfold channelFault
  simp only [← Classical.not_imp, ite_not]
  split
  · rename_i h1
    split
    · rename_i h2
      split
      · rename_i h3
        exact ⟨fun _ => ⟨h1, h2, h3⟩, fun _ => rfl⟩
      · exact ⟨nofun, fun h => absurd h.2.2 ‹_›⟩
    · exact ⟨nofun, fun h => absurd h.2.1 ‹_›⟩
  · exact ⟨nofun, fun h => absurd h.1 ‹_›⟩

theorem triggerFault_eq_none {i : Fin 8} {e : TriggerEntry} : triggerFault i e = none ↔
    (e.combine = .after → e.refEntry ≠ i) ∧ (e.combine = .width → e.widthMin ≤ e.widthMax) := by
  have hafter : (e.combine = .after ∧ e.refEntry = i) ↔ ¬ (e.combine = .after → e.refEntry ≠ i) := by
    rw [Classical.not_imp, not_not]
  unfold triggerFault
  simp only [hafter, ← Classical.not_imp, ite_not]
  split
  · rename_i h1
    split
    · rename_i h2
      exact ⟨fun _ => ⟨h1, h2⟩, fun _ => rfl⟩
    · exact ⟨nofun, fun h => absurd h.2 ‹_›⟩
  · exact ⟨nofun, fun h => absurd h.1 ‹_›⟩

theorem profileFault_eq_none {e : Profile} : profileFault e = none ↔ e.pre + e.post + 1 ≤ e.limit := by
  unfold profileFault
  split
  · exact ⟨fun _ => ‹_›, fun _ => rfl⟩
  · exact ⟨nofun, fun h => absurd h ‹_›⟩

theorem findSome?_map_eq_none {α β : Type} {n : Nat} {f : Fin n → Option α} {g : Fin n → α → β} :
    ((List.finRange n).findSome? fun i => (f i).map (g i)) = none ↔ ∀ i, f i = none := by
  simp [List.findSome?_eq_none_iff]

/-! ## COMMIT at service -/

/-- Settles O51. -/
theorem commitChecksThenStarts : Obligations.CommitChecksThenStarts := by
  refine ⟨fun s q hopen hserving => ?_, firstFault_eq_failing, fun b => ?_⟩
  · have hexec {u : State} (h : serveCommit s q = u) : exec .commit s = .next u :=
      congrArg Host.Outcome.next ((serve_opened hserving hopen).trans h)
    refine ⟨fun hlong => hexec ?_, fun hfits hcount => hexec ?_, fun k table index hfits hcount hfault => hexec ?_,
      fun hfits hcount hfault => hexec ?_⟩
    · exact if_pos hlong
    · exact (if_neg (Nat.not_lt.mpr hfits)).trans (if_pos hcount)
    · refine (if_neg (Nat.not_lt.mpr hfits)).trans ((if_neg (not_not.mpr hcount)).trans ?_)
      rw [hfault]
      rfl
    · refine (if_neg (Nat.not_lt.mpr hfits)).trans ((if_neg (not_not.mpr hcount)).trans ?_)
      rw [hfault]
      rfl
  · unfold firstFault
    simp only [Option.orElse_eq_orElse, Option.orElse_eq_or, Option.or_eq_none_iff, findSome?_map_eq_none,
      channelFault_eq_none, triggerFault_eq_none, profileFault_eq_none]

/-! ## The report and the acknowledgements -/

theorem completeCommit_done {m : Option Round} (hcommitting : s.agent.committing = true)
    (hengine : s.agent.engineAcked = true) (hlines : s.agent.linesAcked = true) (hhead : s.agent.fifo.head? = some q)
    (hmark : s.agent.markRound = match m with
      | some x => .round x
      | none => .noRound) : completeCommit s = commitDone s q m := by
  have hready : commitReady s.agent = true := by
    rw [commitReady, hcommitting, hengine, hlines, hmark]
    cases m <;> rfl
  have haux : markRoundAux s.agent.markRound = roundWord m := by
    rw [hmark]
    cases m <;> rfl
  rw [completeCommit, if_pos hready, finishCommit]
  unfold commitDone
  rw [hhead, ← haux]
  rfl

theorem completeCommit_waits
    (hwait : s.agent.engineAcked = false ∨ s.agent.linesAcked = false ∨ s.agent.markRound = .absent) :
    completeCommit s = s := by
  have hnot : commitReady s.agent = false := by
    obtain h | h | h := hwait <;> simp [commitReady, h]
  rw [completeCommit, hnot]
  rfl

/-- Settles O52. -/
theorem commitCompletesWithLastReport : Obligations.CommitCompletesWithLastReport := by
  refine fun s q hcommitting hhead => ⟨fun r rest hfront => congrArg Host.Outcome.next ?_,
    fun n rest hfront => ⟨fun x hlines hmark => congrArg Host.Outcome.next ?_,
      fun hlines hmark => congrArg Host.Outcome.next ?_, fun hwait => congrArg Host.Outcome.next ?_⟩,
    fun n rest hfront => ⟨fun x hengine hmark => congrArg Host.Outcome.next ?_,
      fun hengine hmark => congrArg Host.Outcome.next ?_, fun hwait => congrArg Host.Outcome.next ?_⟩⟩
  · rw [takeMarkReport, hfront]
    by_cases hboth : s.agent.engineAcked = true ∧ s.agent.linesAcked = true
    · rw [if_pos hboth]
      obtain ⟨hengine, hlines⟩ := hboth
      cases r with
      | none => exact completeCommit_done (m := none) hcommitting hengine hlines hhead rfl
      | some x => exact completeCommit_done (m := some x) hcommitting hengine hlines hhead rfl
    · rw [if_neg hboth]
      have hwait : s.agent.engineAcked = false ∨ s.agent.linesAcked = false := by
        rw [← Bool.and_eq_true_iff, Bool.not_eq_true, Bool.and_eq_false_iff] at hboth
        exact hboth
      cases r with
      | none => exact completeCommit_waits (hwait.imp id .inl)
      | some x => exact completeCommit_waits (hwait.imp id .inl)
  · rw [takeMarkAck, hfront]
    exact completeCommit_done (m := some x) hcommitting rfl hlines hhead hmark
  · rw [takeMarkAck, hfront]
    exact completeCommit_done (m := none) hcommitting rfl hlines hhead hmark
  · rw [takeMarkAck, hfront]
    exact completeCommit_waits (.inr hwait)
  · rw [takeMarkAck, hfront]
    exact completeCommit_done (m := some x) hcommitting hengine rfl hhead hmark
  · rw [takeMarkAck, hfront]
    exact completeCommit_done (m := none) hcommitting hengine rfl hhead hmark
  · rw [takeMarkAck, hfront]
    exact completeCommit_waits (hwait.imp id .inr)

end Sys2Proof.Machine
end

section
/-! R175, R176, R182, R183: ARM, DISARM, FIRE and LINE, node resets, CLEAR_COUNTERS and FRONT requests. -/

namespace Sys2Proof.Machine

open Stated

variable {s t : State} {q : Request}

/-! ## Direct notices (R175) -/

theorem entryMaskOf_eq (v : Word32) : entryMaskOf v = if v.toNat ≤ 255 then some (v.extractLsb' 0 8) else none := by
  have hmask : BitVec.ofNat 8 v.toNat = v.extractLsb' 0 8 := BitVec.eq_of_toNat_eq (by simp)
  rw [entryMaskOf, hmask]

theorem directNotice_arm (hkind : kindOf q.kind = some .arm) : directNotice q =
    if q.value.toNat ≤ 255 then some (.toTable (.arm (q.value.extractLsb' 0 8))) else none := by
  rw [directNotice, hkind]
  dsimp only
  rw [entryMaskOf_eq]
  split <;> rfl

theorem directNotice_disarm (hkind : kindOf q.kind = some .disarm) : directNotice q =
    if q.value.toNat ≤ 255 then some (.toTable (.disarm (q.value.extractLsb' 0 8))) else none := by
  rw [directNotice, hkind]
  dsimp only
  rw [entryMaskOf_eq]
  split <;> rfl

theorem directNotice_fire (hkind : kindOf q.kind = some .fire) (i : Fin 8) (hindex : q.index.toNat = i.val) :
    directNotice q = some (.toTable (.fire i)) := by
  rw [directNotice, hkind]
  dsimp only
  rw [hindex, indexOf_of_lt i.isLt]
  rfl

theorem directNotice_fire_none (hkind : kindOf q.kind = some .fire) (hindex : ¬ q.index.toNat ≤ 7) :
    directNotice q = none := by
  rw [directNotice, hkind]
  dsimp only
  rw [indexOf_of_le (by omega)]
  rfl

theorem directNotice_line (hkind : kindOf q.kind = some .line) (n : Fin 8) (hindex : q.index.toNat = n.val) :
    directNotice q = (lineCommandOf q.value.toNat).map fun c => .toLines (.line n c) := by
  rw [directNotice, hkind]
  dsimp only
  rw [hindex, indexOf_of_lt n.isLt]
  rfl

theorem directNotice_line_none (hkind : kindOf q.kind = some .line) (hindex : ¬ q.index.toNat ≤ 7) :
    directNotice q = none := by
  rw [directNotice, hkind]
  dsimp only
  rw [indexOf_of_le (by omega)]
  rfl

theorem lineCommandOf_some {v : Nat} (h : v ≤ 2) : ∃ c, lineCommandOf v = some c := by
  interval_cases v <;> exact ⟨_, rfl⟩

theorem lineCommandOf_none {v : Nat} (h : ¬ v ≤ 2) : lineCommandOf v = none := by
  unfold lineCommandOf
  split
  · exact absurd (by decide) h
  · exact absurd (by decide) h
  · exact absurd (by decide) h
  · rfl

theorem exists_index {b : Byte} (h : b.toNat ≤ 7) : ∃ i : Fin 8, b.toNat = i.val := ⟨⟨b.toNat, by omega⟩, rfl⟩

/-- R175: the arguments are in range exactly when the request has its direct notice. -/
theorem serveDirect_eq (s : State) {P : Prop} [Decidable P] (hsome : P → ∃ x, directNotice q = some x)
    (hnone : ¬ P → directNotice q = none) : serveDirect s q =
      if P then { s with agent := { s.agent with phase := .dispatching } } else replied s q .badArg 0 0 := by
  unfold serveDirect
  split
  · rename_i x hx
    have hP : P := by
      by_contra hnot
      exact absurd ((hnone hnot).symm.trans hx) nofun
    rw [if_pos hP]
    rfl
  · rename_i hx
    have hnot : ¬ P := fun hP => by
      obtain ⟨x, hy⟩ := hsome hP
      exact absurd (hx.symm.trans hy) nofun
    rw [if_neg hnot]
    rfl

theorem toDispatch_eq (hphase : s.agent.phase = .dispatching) (hhead : s.agent.fifo.head? = some q)
    (hdest : q.dest = 0x00#8) : toDispatch s = directNotice q := by
  rw [toDispatch, hphase, hhead]
  exact if_pos (destinationOf_node hdest)

theorem dispatchNotice_eq {x : DirectNotice} (hphase : s.agent.phase = .dispatching)
    (hhead : s.agent.fifo.head? = some q) (hdest : q.dest = 0x00#8) (hnotice : directNotice q = some x) :
    dispatchNotice s = sendDirect { s with agent := { s.agent with phase := .awaitingAck } } x := by
  rw [dispatchNotice, toDispatch_eq hphase hhead hdest, hnotice]

theorem awaitingNotice_eq {x : DirectNotice} (hphase : s.agent.phase = .awaitingAck)
    (hhead : s.agent.fifo.head? = some q) (hdest : q.dest = 0x00#8) (hnotice : directNotice q = some x) :
    awaitingNotice s = some (q, x) := by
  rw [awaitingNotice, hphase, hhead]
  refine (if_pos (destinationOf_node hdest)).trans ?_
  rw [hnotice]
  rfl

theorem takeNoticeAck_fromTable {x : TriggerNotice} {a : TriggerAck} {rest : List TriggerAck}
    (hawaits : awaitingNotice s = some (q, .toTable x)) (hfront : s.paths.tableAcks = a :: rest) :
    takeNoticeAck s = replied { s with paths := { s.paths with tableAcks := rest } } q
      (if a.refused then .expired else .ok) 0 (roundWord a.round) := by
  rw [takeNoticeAck, hawaits, hfront]
  dsimp only
  rw [replyTableAck, roundOrNone_eq]
  cases a.refused <;> rfl

theorem takeNoticeAck_fromLines {x : LineNotice} {o : LineOutcome} {r : Option Round} {rest : List LineAck}
    (hawaits : awaitingNotice s = some (q, .toLines x)) (hfront : s.paths.lineAcks = .notice o r :: rest) :
    takeNoticeAck s = replyLineAck { s with paths := { s.paths with lineAcks := rest } } q o r := by
  rw [takeNoticeAck, hawaits, hfront]

/-- R175: the direct notice of an ARM, a DISARM or a FIRE goes to the Trigger Table. -/
theorem directNotice_toTable
    (h : ((q.kind = 0x08#8 ∨ q.kind = 0x09#8) ∧ q.value.toNat ≤ 255) ∨ (q.kind = 0x0A#8 ∧ q.index.toNat ≤ 7)) :
    ∃ x, directNotice q = some (.toTable x) := by
  obtain ⟨harm | hdisarm, hmask⟩ | ⟨hfire, hindex⟩ := h
  · exact ⟨_, (directNotice_arm (by rw [harm]; rfl)).trans (if_pos hmask)⟩
  · exact ⟨_, (directNotice_disarm (by rw [hdisarm]; rfl)).trans (if_pos hmask)⟩
  · obtain ⟨i, hi⟩ := exists_index hindex
    exact ⟨_, directNotice_fire (by rw [hfire]; rfl) i hi⟩

/-- R175: the direct notice of a LINE goes to the Output Line Unit. -/
theorem directNotice_toLines (hkind : kindOf q.kind = some .line) (hindex : q.index.toNat ≤ 7)
    (hvalue : q.value.toNat ≤ 2) : ∃ x, directNotice q = some (.toLines x) := by
  obtain ⟨n, hn⟩ := exists_index hindex
  obtain ⟨c, hc⟩ := lineCommandOf_some hvalue
  exact ⟨.line n c, by rw [directNotice_line hkind n hn, hc]; rfl⟩

/-- Settles O53. -/
theorem directRequestsServed : Obligations.DirectRequestsServed := by
  refine ⟨fun s q hopen => ?_, fun s q hhead hdest => ⟨fun hphase => ?_, fun hphase => ?_⟩⟩
  · refine ⟨fun hserving => congrArg _ ((serve_opened hserving hopen).trans (serveDirect_eq s ?_ ?_)),
      fun hserving => congrArg _ ((serve_opened hserving hopen).trans (serveDirect_eq s ?_ ?_)),
      fun hserving => congrArg _ ((serve_opened hserving hopen).trans (serveDirect_eq s ?_ ?_)),
      fun hserving => congrArg _ ((serve_opened hserving hopen).trans (serveDirect_eq s ?_ ?_))⟩
    all_goals obtain ⟨-, -, hkind⟩ := hserving
    · exact fun hmask => ⟨_, (directNotice_arm hkind).trans (if_pos hmask)⟩
    · exact fun hmask => (directNotice_arm hkind).trans (if_neg hmask)
    · exact fun hmask => ⟨_, (directNotice_disarm hkind).trans (if_pos hmask)⟩
    · exact fun hmask => (directNotice_disarm hkind).trans (if_neg hmask)
    · intro hindex
      obtain ⟨i, hi⟩ := exists_index hindex
      exact ⟨_, directNotice_fire hkind i hi⟩
    · exact directNotice_fire_none hkind
    · rintro ⟨hindex, hvalue⟩
      obtain ⟨x, hx⟩ := directNotice_toLines hkind hindex hvalue
      exact ⟨_, hx⟩
    · intro hout
      by_cases hindex : q.index.toNat ≤ 7
      · obtain ⟨n, hn⟩ := exists_index hindex
        rw [directNotice_line hkind n hn, lineCommandOf_none fun hvalue => hout ⟨hindex, hvalue⟩]
        rfl
      · exact directNotice_line_none hkind hindex
  · have hexec {x : DirectNotice} (hnotice : directNotice q = some x) : exec .dispatch s =
        .next (sendDirect { s with agent := { s.agent with phase := .awaitingAck } } x) :=
      congrArg Host.Outcome.next (dispatchNotice_eq hphase hhead hdest hnotice)
    refine ⟨fun hkind hmask => hexec (x := .toTable (.arm (q.value.extractLsb' 0 8))) ?_,
      fun hkind hmask => hexec (x := .toTable (.disarm (q.value.extractLsb' 0 8))) ?_,
      fun i hkind hi => hexec (directNotice_fire ?_ i hi),
      fun n k hkind hn hk => hexec (x := .toLines (.line n k)) ?_⟩
    · exact (directNotice_arm (by rw [hkind]; rfl)).trans (if_pos hmask)
    · exact (directNotice_disarm (by rw [hkind]; rfl)).trans (if_pos hmask)
    · rw [hkind]
      rfl
    · rw [directNotice_line (by rw [hkind]; rfl) n hn, hk]
      cases k <;> rfl
  · refine ⟨fun refused r rest hfront hargs => ?_, fun o r rest hfront hkind hindex hvalue => ?_⟩
    · obtain ⟨x, hx⟩ := directNotice_toTable hargs
      exact congrArg _ (takeNoticeAck_fromTable (awaitingNotice_eq hphase hhead hdest hx) hfront)
    · obtain ⟨x, hx⟩ := directNotice_toLines (by rw [hkind]; rfl) hindex hvalue
      refine congrArg _ ((takeNoticeAck_fromLines (awaitingNotice_eq hphase hhead hdest hx) hfront).trans ?_)
      cases o <;> rw [← roundOrNone_eq] <;> rfl

/-! ## CLEAR_COUNTERS and NODE_RESET (R182, R183) -/

theorem counterAt_zeroCounters : ∀ i < 21, counterAt zeroCounters i = some 0 := by decide

/-- R182: the second of the two acknowledgements ends the node reset. -/
theorem completeNodeReset_done (hreset : s.agent.nodeResetting = true) (hengine : s.agent.engineAcked = true)
    (hlines : s.agent.linesAcked = true) (hhead : s.agent.fifo.head? = some q) : completeNodeReset s =
      replied { s with agent := { s.agent with nodeResetting := false } } q .ok (s.agent.epoch.setWidth 32) 0 := by
  have hboth : (s.agent.nodeResetting && s.agent.engineAcked && s.agent.linesAcked) = true := by
    rw [hreset, hengine, hlines]
    rfl
  rw [completeNodeReset, if_pos hboth]
  dsimp only
  rw [hhead]
  rfl

theorem completeNodeReset_waits (hwait : s.agent.engineAcked = false ∨ s.agent.linesAcked = false) :
    completeNodeReset s = s := by
  have hnot : (s.agent.nodeResetting && s.agent.engineAcked && s.agent.linesAcked) = false := by
    obtain h | h := hwait <;> simp [h]
  rw [completeNodeReset, hnot]
  rfl

/-- Settles O54. -/
theorem countersClearedNodeReset : Obligations.CountersClearedNodeReset := by
  refine fun s q => ⟨fun hserving hopen => ⟨zeroCounters, counterAt_zeroCounters,
      congrArg _ (serve_opened hserving hopen)⟩, fun hserving hopen => congrArg _ (serve_opened hserving hopen),
    fun hreset hhead => ⟨fun rest hfront => congrArg Host.Outcome.next ?_,
      fun rest hfront => congrArg Host.Outcome.next ?_⟩⟩
  · rw [takeNodeResetAck, hfront]
    cases hlines : s.agent.linesAcked
    · exact completeNodeReset_waits (.inr hlines)
    · exact completeNodeReset_done hreset rfl hlines hhead
  · rw [takeNodeResetAck, hfront]
    cases hengine : s.agent.engineAcked
    · exact completeNodeReset_waits (.inl hengine)
    · exact completeNodeReset_done hreset hengine rfl hhead

/-! ## FRONT requests (R176) -/

theorem serveFront_of (hservice : AtService s q) (hdest : q.dest = 0x01#8) (hopen : s.agent.session = .opened) :
    serveFront s = relayRequest s q := by
  rw [serveFront, headToServe_of hservice]
  exact (if_pos (destinationOf_front hdest)).trans (needsSession_opened hopen)

theorem relayRequest_busy {b : CommandBytes} (hbusy : s.frontOut = some b) :
    relayRequest s q = enterDispatching s := by rw [relayRequest, hbusy]

theorem waitingRelay_some (hphase : s.agent.phase = .dispatching) (hhead : s.agent.fifo.head? = some q)
    (hdest : q.dest = 0x01#8) : waitingRelay s = some q := by
  rw [waitingRelay, hphase, hhead]
  exact if_pos (destinationOf_front hdest)

theorem eq_one_of_destinationOf_front {b : Byte} (h : destinationOf b = some .front) : b = 0x01#8 := by
  unfold destinationOf at h
  split at h <;> cases h
  exact BitVec.eq_of_toNat_eq ‹_›

theorem waitingRelay_none
    (hnone : s.agent.phase ≠ .dispatching ∨ ∀ x, s.agent.fifo.head? = some x → x.dest ≠ 0x01#8) :
    waitingRelay s = none := by
  unfold waitingRelay
  split
  · rename_i x hphase hhead
    refine if_neg fun hfront => ?_
    obtain hnot | hdest := hnone
    · exact hnot hphase
    · exact hdest x hhead (eq_one_of_destinationOf_front hfront)
  · rfl

theorem completeRelay_sent {b : CommandBytes} (hclock : s.clock.refclk = true) (hsent : s.frontOut = some b) :
    completeRelay s =
      (waitingRelay s).elim { s with frontOut := none } (startRelay { s with frontOut := none }) := by
  rw [completeRelay, hclock, hsent]
  cases waitingRelay s <;> rfl

/-- Settles O55. -/
theorem frontRequestsRelayed : Obligations.FrontRequestsRelayed := by
  intro s q
  dsimp only
  rw [requestHead_command]
  refine ⟨fun hservice hdest hopen => ⟨fun hfree => congrArg _ ((serveFront_of hservice hdest hopen).trans ?_),
    fun hbusy => congrArg _ ((serveFront_of hservice hdest hopen).trans ?_)⟩, fun hclock hbusy => ?_⟩
  · rw [relayRequest, hfree]
    rfl
  · obtain ⟨b, hb⟩ := Option.ne_none_iff_exists'.mp hbusy
    exact relayRequest_busy hb
  · obtain ⟨b, hb⟩ := Option.ne_none_iff_exists'.mp hbusy
    refine ⟨fun hphase hhead hdest => congrArg _ ((completeRelay_sent hclock hb).trans ?_),
      fun hnone => congrArg _ ((completeRelay_sent hclock hb).trans ?_)⟩
    · rw [waitingRelay_some hphase hhead hdest]
      rfl
    · rw [waitingRelay_none hnone]
      rfl

end Sys2Proof.Machine
end

section
/-! R183: no command but CLEAR_COUNTERS and a power-on reset lowers a counter. Each operation that counts raises its
counters (`CountersRise`), and the moves of the Agent and of the Window Engine carry that to their commands. -/

namespace Sys2Proof.Machine

open Stated

variable {s t : State} {c : Counters}

/-! ## The lanes and the Round Assembler -/

theorem onLane_rises {f : State → State} (hf : ∀ u : State, CountersRise u.counters (f u).counters) (dt : Nat) :
    CountersRise s.counters (onLane s dt f).counters := by
  obtain ⟨-, heq⟩ | ⟨-, heq⟩ := onLane_cases s dt f <;> rw [heq]
  · exact elapse_counters (s := s) dt ▸ hf (elapse s dt)
  · exact .refl _

theorem discardCell_rises (lane : Lane) (cell : Option RawCell) (s : State) :
    CountersRise s.counters (discardCell lane cell s).counters := by
  unfold discardCell
  split
  · exact .refl _
  · cases lane
    · exact rises_streamBadCells _ 1
    · exact rises_controlBadCells _ 1

theorem insertPending_counters (s : State) : (insertPending s).counters = s.counters := by
  unfold insertPending
  split <;> rfl

/-- R6, R7: a round that closes is counted, and if incomplete so are the samples it lacks. -/
theorem closeRound_rises (h : CountersRise c s.counters) (a : InAssembly) (complete : Bool) :
    CountersRise c (closeRound s a complete).counters := by
  refine h.trans ?_
  unfold closeRound
  rw [insertPending_counters]
  cases complete
  · exact (rises_roundsAssembled s.counters 1).trans (rises_absentSamples _ _)
  · exact rises_roundsAssembled s.counters 1

theorem closeIncomplete_rises (h : CountersRise c s.counters) : CountersRise c (closeIncomplete s).counters := by
  unfold closeIncomplete
  split
  · exact h
  · exact closeRound_rises h _ false

theorem acceptRound_rises (h : CountersRise c s.counters) (n : Round) (declared : ChannelMask) (gap : Nat)
    (spanStart : Bool) : CountersRise c (acceptRound s n declared gap spanStart).counters := by
  unfold acceptRound
  dsimp only
  split
  · refine closeRound_rises ?_ _ true
    exact h
  · exact h

theorem restartRound_rises (h : CountersRise c s.counters) (old n : Round) (declared : ChannelMask) :
    CountersRise c (restartRound s old n declared).counters := by
  refine acceptRound_rises ?_ n declared 0 true
  exact h.trans (rises_restarts s.counters 1)

theorem countLost_rises (h : CountersRise c s.counters) (k : Nat) : CountersRise c (countLost s k).counters :=
  h.trans (rises_roundsLost s.counters k)

theorem forwardRound_rises (h : CountersRise c s.counters) (last n : Round) (declared : ChannelMask) (d : Nat) :
    CountersRise c (forwardRound s last n declared d).counters := by
  unfold forwardRound
  split
  · exact acceptRound_rises h n declared 0 false
  · refine acceptRound_rises ?_ n declared (d - 1) false
    exact countLost_rises h (d - 1)

theorem resumeRound_rises (h : CountersRise c s.counters) (n : Round) (declared : ChannelMask) (d : Nat) :
    CountersRise c (resumeRound s n declared d).counters := by
  refine acceptRound_rises ?_ n declared (d - 1) false
  exact countLost_rises h (d - 1)

/-- R9 to R13: however a ROUND cell is judged. -/
theorem judgeRound_rises (h : CountersRise c s.counters) (n : Round) (declared : ChannelMask) :
    CountersRise c (judgeRound s n declared).counters := by
  unfold judgeRound
  split
  · exact acceptRound_rises h n declared 0 true
  · split
    · exact forwardRound_rises h _ n declared _
    · split
      · exact h.trans (rises_backwardRoundsRefused s.counters 1)
      · exact restartRound_rises h _ n declared
  · split
    · exact resumeRound_rises h n declared _
    · exact restartRound_rises h _ n declared

theorem takeSample_rises (h : CountersRise c s.counters) (a : InAssembly) (ch : Fin 16) (value : Sample) :
    CountersRise c (takeSample s a ch value).counters := by
  unfold takeSample
  dsimp only
  split
  · refine closeRound_rises ?_ _ true
    cases s.asm.modes.get ch <;> exact h
  · cases s.asm.modes.get ch <;> exact h

theorem sampleTaken_rises (h : CountersRise c s.counters) (channel low : Byte) (value : Sample) :
    CountersRise c (sampleTaken s channel low value).counters := by
  unfold sampleTaken
  split
  · exact h.trans (rises_straySamples s.counters 1)
  · split
    · exact h.trans (rises_malformedStreamCells s.counters 1)
    · split
      · exact takeSample_rises h _ _ value
      · exact h.trans (rises_malformedStreamCells s.counters 1)

theorem silenceExpires_rises (s : State) : CountersRise s.counters (silenceExpires s).counters := by
  unfold silenceExpires
  split
  · exact .refl _
  · split
    · unfold streamFallsSilent
      dsimp only
      split
      · refine closeIncomplete_rises (s := reach s _) ?_
        exact .refl _
      · exact .refl _
      · exact .refl _
    · exact .refl _

theorem takeCommitStart_counters (s : State) : (takeCommitStart s).counters = s.counters := by
  unfold takeCommitStart
  split
  · dsimp only
    split <;> rfl
  · rfl

theorem takeNodeResetStart_counters (s : State) : (takeNodeResetStart s).counters = s.counters := by
  unfold takeNodeResetStart
  split <;> rfl

theorem assembler_rises {i : Instr} (hc : blockOf i = .assembler) (h : exec i s = .next t) :
    CountersRise s.counters t.counters := by
  cases i <;> cases hc
  all_goals obtain rfl := Host.Outcome.next.inj h
  case roundCell dt n declared =>
    exact onLane_rises (fun u => judgeRound_rises (closeIncomplete_rises (.refl _)) n declared) dt
  case sampleCell dt channel low value => exact onLane_rises (fun u => sampleTaken_rises (.refl _) channel low value) dt
  case feReplyRelay dt body =>
    exact onLane_rises (f := fun u => asmOffer u (.relay body)) (fun u => .refl u.counters) dt
  case silenceExpiry => exact silenceExpires_rises s
  case commitStart => exact .of_eq (takeCommitStart_counters s)
  case nodeResetStart => exact .of_eq (takeNodeResetStart_counters s)

/-! ## The Window Engine -/

theorem resumePass_rises (h : CountersRise c s.counters) : CountersRise c (resumePass s).counters := by
  refine runPass_keeps (P := fun u => CountersRise c u.counters) ?_ _ s h
  constructor
  case tail | done | head | empty | group => intros; assumption
  case remove => exact fun u p w hu _ _ _ => hu.trans (rises_windowsDiscarded u.counters _)
  case settle => exact fun u p hu _ _ _ _ => hu.trans (rises_windowsTruncated u.counters _)

theorem OpenOutcome.rises {q : OpenRequest} (h : OpenOutcome s q t) : CountersRise s.counters t.counters := by
  cases h
  case held => exact rises_windowsRefused _ 1
  case full => exact rises_windowsRefused _ 1
  case ignored => exact rises_retriggersIgnored _ 1
  case extended => exact rises_windowsExtended _ 1
  case created => exact rises_windowsOpened _ 1

theorem flushWindows_rises (h : CountersRise c s.counters) : CountersRise c (flushWindows s).counters :=
  h.trans (rises_windowsTruncated s.counters _)

theorem abortWindows_rises (h : CountersRise c s.counters) : CountersRise c (abortWindows s).counters :=
  h.trans (rises_windowsDiscarded s.counters _)

theorem takeFlushedRestart_rises (h : CountersRise c s.counters) : CountersRise c (takeFlushedRestart s).counters := by
  unfold takeFlushedRestart
  split
  · exact h
  · exact flushWindows_rises h

theorem takeFlushedNodeReset_rises (h : CountersRise c s.counters) :
    CountersRise c (takeFlushedNodeReset s).counters := by
  show CountersRise c (if 0 < s.engine.balance then s else flushWindows s).counters
  split
  · exact h
  · exact flushWindows_rises h

theorem takeStored_counters (r : Round) (s : State) : (takeStored r s).counters = s.counters := by
  unfold takeStored
  split <;> rfl

theorem takeLost_counters (n : Round) (s : State) : (takeLost n s).counters = s.counters := by
  unfold takeLost
  split <;> rfl

theorem EngineTakes.rises (h : EngineTakes s t) : CountersRise s.counters t.counters := by
  cases h
  case request q rest _ hout => exact hout.rises
  case nodeReset rest _ =>
    exact abortWindows_rises (s := { s with paths := { s.paths with tableToEngine := rest } }) (.refl _)
  case safeState rest _ =>
    exact abortWindows_rises (s := { s with paths := { s.paths with agentToEngine := rest } }) (.refl _)
  case stored r rest _ => exact .of_eq (takeStored_counters r _)
  case lost n rest _ => exact .of_eq (takeLost_counters n _)
  case flushedRestart rest _ =>
    refine takeFlushedRestart_rises ?_
    exact .refl _
  case flushedNodeReset rest _ =>
    refine takeFlushedNodeReset_rises ?_
    exact .refl _
  case mark | overwritten | room | tailTransmitted | sessionOpen => exact .refl _

theorem groupEmitted_counters (s : State) (g : List WinSample) : (groupEmitted s g).counters = s.counters := by
  cases g <;> rfl

theorem engine_rises {i : Instr} (hc : blockOf i = .engine) (h : exec i s = .next t) :
    CountersRise s.counters t.counters := by
  cases engine_move hc h
  case stays => exact .refl _
  case event u _ hu =>
    refine resumePass_rises ?_
    exact hu.rises
  case headAdmitted =>
    refine resumePass_rises ?_
    exact .refl _
  case groupAdmitted =>
    refine resumePass_rises (.of_eq ?_)
    exact groupEmitted_counters _ _
  case tailAdmitted =>
    refine resumePass_rises ?_
    exact .refl _
  case declined => exact .refl _

/-! ## The Egress Queue -/

theorem admitEvent_rises (h : CountersRise c s.counters) (e : EventCell) :
    CountersRise c (admitEvent s e).counters := by
  obtain ⟨-, heq⟩ | ⟨-, -, heq⟩ | ⟨-, -, heq⟩ := admitEvent_cases s e <;> rw [heq]
  · exact h
  · exact h
  · exact h.trans (rises_eventsDropped s.counters 1)

theorem takeEventOffer_rises (source : EventSource) (s : State) :
    CountersRise s.counters (takeEventOffer source s).counters := by
  unfold takeEventOffer
  cases source
  all_goals
    dsimp only
    split
    · refine admitEvent_rises ?_ _
      exact .refl _
    · exact .refl _

theorem offerReply_counters (s : State) (x : ReplyCell) : (offerReply s x).counters = s.counters := by
  unfold offerReply
  split <;> rfl

theorem takeReplyOffer_counters (s : State) : (takeReplyOffer s).counters = s.counters := by
  unfold takeReplyOffer
  split
  · exact offerReply_counters _ _
  · rfl

theorem admitWaiting_counters (s : State) : (admitWaiting s).counters = s.counters := by
  unfold admitWaiting
  split
  · rfl
  · split <;> rfl

theorem startTransmission_rises (s : State) : CountersRise s.counters (startTransmission s).counters := by
  unfold startTransmission
  split
  · split
    · rw [startSending_inTransmission]
      dsimp only
      rw [admitWaiting_counters]
      exact rises_cellsTransmitted s.counters 1
    · exact .refl _
  · exact .refl _

theorem takeCreditNotice_rises (s : State) : CountersRise s.counters (takeCreditNotice s).counters := by
  unfold takeCreditNotice
  split
  · unfold addCredits
    dsimp only
    split
    · exact .refl _
    · refine admitEvent_rises ?_ _
      exact .refl _
  · exact .refl _

theorem queue_rises {i : Instr} (hc : blockOf i = .queue) (h : exec i s = .next t) :
    CountersRise s.counters t.counters := by
  cases i <;> cases hc
  all_goals obtain rfl := Host.Outcome.next.inj h
  case liveOffer =>
    unfold takeLiveOffer admitLive
    split
    · split
      · exact .refl _
      · exact rises_liveDropped s.counters 1
    · exact .refl _
  case relayOffer =>
    unfold takeRelayOffer admitRelay
    split
    · split
      · exact .refl _
      · exact rises_relayDropped s.counters 1
    · exact .refl _
  case eventOffer source => exact takeEventOffer_rises source s
  case replyOffer => exact .of_eq (takeReplyOffer_counters s)
  case transmissionStart => exact startTransmission_rises s
  case transmissionCompletion =>
    unfold completeTransmission
    split <;> exact .refl _
  case creditNotice => exact takeCreditNotice_rises s
  case settingsAdoption =>
    unfold takeSettings
    split <;> exact .refl _

/-! ## The Management Agent -/

theorem openWith_counters (s : State) (l : Nat) : (openWith s l).counters = s.counters := by
  rw [openWith_eq]
  split <;> rfl

theorem AgentMove.rises (h : AgentMove s t) : CountersRise s.counters t.counters := by
  cases h
  case counts hrise => exact hrise
  case renews hrise => exact hrise
  case answers hu =>
    cases hu
    case opened l => exact .of_eq (openWith_counters s l)
    all_goals exact .refl _
  case sends x _ => cases x <;> exact .refl _
  case notes hu => cases hu <;> exact .refl _
  case endsCommit hu _ =>
    unfold finishCommit
    cases hu <;> dsimp only <;> split <;> exact .refl _
  case endsReset hu _ =>
    unfold completeNodeReset
    cases hu <;> dsimp only <;> split <;> (try split) <;> exact .refl _
  all_goals exact .refl _

/-! ## Every command -/

theorem exec_rises {i : Instr} (h : exec i s = .next t) (hclear : i ≠ .clearCounters) (hpower : i ≠ .powerOnReset) :
    CountersRise s.counters t.counters := by
  have hframe := exec_changesOnly h
  cases hc : blockOf i <;> rw [hc] at hframe
  case power =>
    cases i <;> cases hc
    case powerOnReset => exact absurd rfl hpower
  case clearing =>
    cases i <;> cases hc
    case clearCounters => exact absurd rfl hclear
  case lanes =>
    cases i <;> cases hc
    case laneCellDiscard dt lane cell =>
      obtain rfl := Host.Outcome.next.inj h
      exact onLane_rises (discardCell_rises lane cell) dt
  case assembler => exact assembler_rises hc h
  case engine => exact engine_rises hc h
  case queue => exact queue_rises hc h
  case agent =>
    obtain ⟨l, hmove⟩ := agent_move hc h
    exact hmove.rises
  case clock | store | evaluator | table | lines => rw [hframe]; exact .refl _

/-- Settles O57. -/
theorem countersNeverDecrease : Obligations.CountersNeverDecrease := by
  refine ⟨fun c s t h hclear hpower i v hv => ?_, raise_toNat⟩
  have hi : i < 21 := by
    by_contra hnot
    rw [counterAt_eq_none (Nat.not_lt.mp hnot)] at hv
    cases hv
  have hrise := exec_rises h hclear hpower i
  rw [counterValue, counterValue, hv] at hrise
  exact ⟨_, counterAt_eq_of_lt hi t.counters, hrise⟩

end Sys2Proof.Machine
end

section
/-! R151, R152, R156, R167: a field written reads back. A bank is read as a list of fields for each entry
(`bankFields`), and a write sets one of them: each field by the codec of its values (`Codec`, Table 8-2). -/

namespace Sys2Proof.Machine

open Stated

/-! ## Codecs of the values of a field -/

/-- A decoded value is there exactly when `P` holds, and reads back as the word `v`. -/
structure Codec {α : Type} (dec : Option α) (enc : α → Word32) (v : Word32) (P : Prop) : Prop where
  accepts : dec.isSome = true ↔ P
  back : ∀ a, dec = some a → enc a = v

variable {v : Word32}

theorem word_toNat (v : Word32) : word v.toNat = v := by rw [word, BitVec.ofNat_toNat, BitVec.setWidth_eq]

/-- An enumeration with the codes 0 to `m`. -/
theorem Codec.enum {α : Type} {of : Nat → Option α} {code : α → Nat} {m : Nat}
    (hin : ∀ n ≤ m, ∃ a, of n = some a ∧ code a = n) (hout : ∀ k, of (k + (m + 1)) = none) (v : Word32) :
    Codec (of v.toNat) (fun a => word (code a)) v (v.toNat ≤ m) := by
  by_cases hv : v.toNat ≤ m
  · obtain ⟨a, ha, hcode⟩ := hin _ hv
    refine ⟨⟨fun _ => hv, fun _ => ha ▸ rfl⟩, fun b hb => ?_⟩
    obtain rfl := Option.some.inj (ha.symm.trans hb)
    rw [hcode, word_toNat]
  · obtain ⟨k, hk⟩ := Nat.exists_eq_add_of_le' (Nat.not_le.mp hv)
    rw [hk, hout k]
    exact ⟨⟨nofun, fun hle => absurd hle (by omega)⟩, nofun⟩

theorem Codec.range (lo hi : Nat) (v : Word32) :
    Codec (rangeOf lo hi v.toNat) word v (lo ≤ v.toNat ∧ v.toNat ≤ hi) := by
  unfold rangeOf
  split
  · rename_i hv
    refine ⟨⟨fun _ => hv, fun _ => rfl⟩, fun a ha => ?_⟩
    rw [← Option.some.inj ha, word_toNat]
  · rename_i hv
    exact ⟨⟨nofun, fun h => absurd h hv⟩, nofun⟩

theorem Codec.congr {α : Type} {dec : Option α} {enc : α → Word32} {P Q : Prop} (h : Codec dec enc v P) (hPQ : P ↔ Q) :
    Codec dec enc v Q := ⟨h.accepts.trans hPQ, h.back⟩

/-- A range from 0. -/
theorem Codec.upTo (hi : Nat) (v : Word32) : Codec (rangeOf 0 hi v.toNat) word v (v.toNat ≤ hi) :=
  (Codec.range 0 hi v).congr (and_iff_right (Nat.zero_le _))

/-- A mask of `w` bits. -/
theorem Codec.mask {w hi : Nat} (hw : hi < 2 ^ w) (v : Word32) :
    Codec (rangeOf 0 hi v.toNat) (fun a => (BitVec.ofNat w a).setWidth 32) v (v.toNat ≤ hi) := by
  refine ⟨(Codec.upTo hi v).accepts, fun a ha => ?_⟩
  unfold rangeOf at ha
  split at ha
  · rename_i hv
    obtain rfl := Option.some.inj ha
    have hfits : v.toNat < 2 ^ w := hv.2.trans_lt hw
    refine BitVec.eq_of_toNat_eq ?_
    rw [BitVec.toNat_setWidth, BitVec.toNat_ofNat, Nat.mod_eq_of_lt hfits, Nat.mod_eq_of_lt v.isLt]
  · cases ha

/-- R152: a signed field. -/
theorem Codec.signed (v : Word32) : Codec (signedOf v) signedWord v (-8388608 ≤ v.toInt ∧ v.toInt ≤ 8388607) := by
  unfold signedOf
  split
  · rename_i hv
    refine ⟨⟨fun _ => hv, fun _ => rfl⟩, fun a ha => ?_⟩
    obtain rfl := Option.some.inj ha
    refine BitVec.eq_of_toInt_eq ?_
    rw [signedWord, BitVec.toInt_signExtend_of_le (by decide), BitVec.toInt_ofInt]
    exact Int.bmod_eq_of_le (by omega) (by omega)
  · rename_i hv
    exact ⟨⟨nofun, fun h => absurd h hv⟩, nofun⟩

theorem Codec.index (n : Nat) (v : Word32) :
    Codec (indexOf (n + 1) v.toNat) (fun i => word i.val) v (v.toNat ≤ n) := by
  by_cases hv : v.toNat < n + 1
  · rw [indexOf_of_lt hv]
    refine ⟨⟨fun _ => Nat.le_of_lt_succ hv, fun _ => rfl⟩, fun i hi => ?_⟩
    rw [← Option.some.inj hi, word_toNat]
  · rw [indexOf_of_le (Nat.not_lt.mp hv)]
    exact ⟨⟨nofun, fun hle => absurd (Nat.lt_succ_of_le hle) hv⟩, nofun⟩

/-- R152: an index, or NONE as 255. -/
theorem Codec.optIndex (n : Nat) (v : Word32) :
    Codec (optIndexOf (n + 1) v.toNat) (fun i => word (optIndexCode i)) v (v.toNat ≤ n ∨ v.toNat = 255) := by
  unfold optIndexOf
  split
  · rename_i hnone
    refine ⟨⟨fun _ => .inr hnone, fun _ => rfl⟩, fun i hi => ?_⟩
    rw [← Option.some.inj hi, optIndexCode, ← hnone, word_toNat]
  · rename_i hsome
    obtain ⟨haccepts, hback⟩ := Codec.index n v
    refine ⟨?_, fun i hi => ?_⟩
    · rw [Option.isSome_map, haccepts]
      exact ⟨.inl, fun h => h.resolve_right hsome⟩
    · obtain ⟨j, hj, rfl⟩ := Option.map_eq_some_iff.mp hi
      exact hback j hj

/-! ### The enumerations of Table 8-2 -/

theorem Codec.mode (v : Word32) : Codec (modeOf v.toNat) (fun a => word (modeCode a)) v (v.toNat ≤ 2) :=
  .enum (fun n hn => by interval_cases n <;> exact ⟨_, rfl, rfl⟩) (fun _ => rfl) v

theorem Codec.condition (v : Word32) :
    Codec (conditionOf v.toNat) (fun a => word (conditionCode a)) v (v.toNat ≤ 6) :=
  .enum (fun n hn => by interval_cases n <;> exact ⟨_, rfl, rfl⟩) (fun _ => rfl) v

theorem Codec.combine (v : Word32) : Codec (combineOf v.toNat) (fun a => word (combineCode a)) v (v.toNat ≤ 4) :=
  .enum (fun n hn => by interval_cases n <;> exact ⟨_, rfl, rfl⟩) (fun _ => rfl) v

theorem Codec.policy (v : Word32) : Codec (policyOf v.toNat) (fun a => word (policyCode a)) v (v.toNat ≤ 1) :=
  .enum (fun n hn => by interval_cases n <;> exact ⟨_, rfl, rfl⟩) (fun _ => rfl) v

theorem Codec.lineAction (v : Word32) :
    Codec (lineActionOf v.toNat) (fun a => word (lineActionCode a)) v (v.toNat ≤ 3) :=
  .enum (fun n hn => by interval_cases n <;> exact ⟨_, rfl, rfl⟩) (fun _ => rfl) v

theorem Codec.overlap (v : Word32) : Codec (overlapOf v.toNat) (fun a => word (overlapCode a)) v (v.toNat ≤ 2) :=
  .enum (fun n hn => by interval_cases n <;> exact ⟨_, rfl, rfl⟩) (fun _ => rfl) v

theorem Codec.bool (v : Word32) : Codec (boolOf v.toNat) (fun a => word (boolCode a)) v (v.toNat ≤ 1) :=
  .enum (fun n hn => by interval_cases n <;> exact ⟨_, rfl, rfl⟩) (fun _ => rfl) v

theorem Codec.level (v : Word32) : Codec (levelOf v.toNat) (fun a => word (levelCode a)) v (v.toNat ≤ 1) :=
  .enum (fun n hn => by interval_cases n <;> exact ⟨_, rfl, rfl⟩) (fun _ => rfl) v

/-! ## The fields of an entry -/

/-- A write of `v` to field `f` of entry `e`: taken exactly when `P` holds, and then that field alone is set. -/
structure Writes {E : Type} (fields : E → List Word32) (e : E) (f : Nat) (v : Word32) (P : Prop) (out : Option E) :
    Prop where
  accepts : out.isSome = true ↔ P
  sets : ∀ x, out = some x → fields x = (fields e).set f v

theorem Codec.writes {α E : Type} {dec : Option α} {enc : α → Word32} {P : Prop} {fields : E → List Word32} {e : E}
    {f : Nat} {put : α → E} (h : Codec dec enc v P) (hput : ∀ a, fields (put a) = (fields e).set f (enc a)) :
    Writes fields e f v P (dec.map put) := by
  refine ⟨Option.isSome_map.symm ▸ h.accepts, fun x hx => ?_⟩
  obtain ⟨a, ha, rfl⟩ := Option.map_eq_some_iff.mp hx
  rw [hput, h.back a ha]

theorem Writes.refused {E : Type} {fields : E → List Word32} {e : E} {f : Nat} {P : Prop} (hP : ¬ P) :
    Writes fields e f v P none := ⟨⟨nofun, fun h => absurd h hP⟩, nofun⟩

theorem writeChannel_writes (e : ChannelEntry) (f : Nat) (v : Word32) :
    Writes channelFields e f v (InRange 0 f v) (writeChannel e f v) :=
  match f with
  | 0 => (Codec.mode v).writes fun a => by cases a <;> rfl
  | 1 => (Codec.condition v).writes fun a => by cases a <;> rfl
  | 2 => (Codec.signed v).writes fun _ => rfl
  | 3 => (Codec.signed v).writes fun _ => rfl
  | 4 => (Codec.upTo 65535 v).writes fun _ => rfl
  | 5 => (Codec.range 1 255 v).writes fun _ => rfl
  | _ + 6 => .refused id

theorem writeTrigger_writes (e : TriggerEntry) (f : Nat) (v : Word32) :
    Writes triggerFields e f v (InRange 1 f v) (writeTrigger e f v) :=
  match f with
  | 0 => (Codec.combine v).writes fun a => by cases a <;> rfl
  | 1 => (Codec.mask (w := 16) (by decide) v).writes fun _ => rfl
  | 2 => (Codec.index 7 v).writes fun _ => rfl
  | 3 => (Codec.range 1 65535 v).writes fun _ => rfl
  | 4 => ⟨⟨fun _ => trivial, fun _ => rfl⟩, fun x hx => by
      obtain rfl := Option.some.inj hx
      have hlimits : v.toNat / 65536 * 65536 + v.toNat % 65536 = v.toNat := Nat.div_add_mod' _ _
      have hback := word_toNat v
      rw [← hlimits] at hback
      exact congrArg (fun x => (triggerFields e).set 4 x) hback⟩
  | 5 => ⟨⟨fun _ => trivial, fun _ => rfl⟩, fun x hx => by
      obtain rfl := Option.some.inj hx
      rfl⟩
  | 6 => (Codec.upTo 2147483647 v).writes fun _ => rfl
  | 7 => (Codec.policy v).writes fun a => by cases a <;> rfl
  | 8 => (Codec.upTo 65535 v).writes fun _ => rfl
  | 9 => (Codec.bool v).writes fun a => by cases a <;> rfl
  | 10 => (Codec.optIndex 3 v).writes fun a => by cases a <;> rfl
  | 11 => (Codec.optIndex 7 v).writes fun a => by cases a <;> rfl
  | 12 => (Codec.lineAction v).writes fun a => by cases a <;> rfl
  | 13 => (Codec.range 1 65535 v).writes fun _ => rfl
  | 14 => (Codec.bool v).writes fun a => by cases a <;> rfl
  | 15 => (Codec.mask (w := 8) (by decide) v).writes fun _ => rfl
  | _ + 16 => .refused id

theorem writeProfile_writes (e : Profile) (f : Nat) (v : Word32) :
    Writes profileFields e f v (InRange 2 f v) (writeProfile e f v) :=
  match f with
  | 0 => (Codec.upTo 255 v).writes fun _ => rfl
  | 1 => (Codec.range 1 4095 v).writes fun _ => rfl
  | 2 => (Codec.mask (w := 16) (by decide) v).writes fun _ => rfl
  | 3 => (Codec.overlap v).writes fun a => by cases a <;> rfl
  | 4 => (Codec.range 1 16383 v).writes fun _ => rfl
  | _ + 5 => .refused id

theorem writeLine_writes (e : LineEntry) (f : Nat) (v : Word32) :
    Writes lineFields e f v (InRange 3 f v) (writeLine e f v) :=
  match f with
  | 0 => (Codec.bool v).writes fun a => by cases a <;> rfl
  | 1 => (Codec.level v).writes fun a => by cases a <;> rfl
  | _ + 2 => .refused id

theorem writeSettings_writes (e : Settings) (f : Nat) (v : Word32) :
    Writes settingsFields e f v (InRange 4 f v) (writeSettings e f v) :=
  match f with
  | 0 => (Codec.range 1 255 v).writes fun _ => rfl
  | 1 => (Codec.range 16 240 v).writes fun _ => rfl
  | 2 => (Codec.mask (w := 9) (by decide) v).writes fun _ => rfl
  | _ + 3 => .refused id

/-- A mask reads as its number. -/
theorem word_mask {w : Nat} (x : BitVec w) : word x.toNat = x.setWidth 32 := BitVec.ofNat_toNat 32 x

theorem readChannel_eq (e : ChannelEntry) (f : Nat) : readChannel e f = (channelFields e)[f]? :=
  match f with
  | 0 => by cases e with | _ m => cases m <;> rfl
  | 1 => by cases e with | _ _ c => cases c <;> rfl
  | 2 => rfl
  | 3 => rfl
  | 4 => rfl
  | 5 => rfl
  | _ + 6 => rfl

theorem readTrigger_eq (e : TriggerEntry) (f : Nat) : readTrigger e f = (triggerFields e)[f]? :=
  match f with
  | 0 => by unfold readTrigger triggerFields; cases e.combine <;> rfl
  | 1 => congrArg some (word_mask e.sources)
  | 2 => rfl
  | 3 => rfl
  | 4 => rfl
  | 5 => rfl
  | 6 => rfl
  | 7 => by unfold readTrigger triggerFields; cases e.policy <;> rfl
  | 8 => rfl
  | 9 => rfl
  | 10 => by unfold readTrigger triggerFields; cases e.profile <;> rfl
  | 11 => by unfold readTrigger triggerFields; cases e.line <;> rfl
  | 12 => by unfold readTrigger triggerFields; cases e.lineAction <;> rfl
  | 13 => rfl
  | 14 => rfl
  | 15 => congrArg some (word_mask e.chainMask)
  | _ + 16 => rfl

theorem readProfile_eq (e : Profile) (f : Nat) : readProfile e f = (profileFields e)[f]? :=
  match f with
  | 0 => rfl
  | 1 => rfl
  | 2 => congrArg some (word_mask e.mask)
  | 3 => by unfold readProfile profileFields; cases e.overlap <;> rfl
  | 4 => rfl
  | _ + 5 => rfl

theorem readLine_eq (e : LineEntry) (f : Nat) : readLine e f = (lineFields e)[f]? :=
  match f with
  | 0 => rfl
  | 1 => by unfold readLine lineFields; cases e.idle <;> rfl
  | _ + 2 => rfl

theorem readSettings_eq (e : Settings) (f : Nat) : readSettings e f = (settingsFields e)[f]? :=
  match f with
  | 0 => rfl
  | 1 => rfl
  | 2 => congrArg some (word_mask e.eventMask)
  | _ + 3 => rfl

/-! ## The entries of a table -/

/-- The fields of the entry with an index; no fields without such an entry. -/
def entryFields {E : Type} {n : Nat} (fields : E → List Word32) (es : Vector E n) (i : Nat) : List Word32 :=
  (indexOf n i).elim [] fun k => fields (es.get k)

theorem entryFields_get {E : Type} {n : Nat} (fields : E → List Word32) (es : Vector E n) (k : Fin n) :
    entryFields fields es k.val = fields (es.get k) := by
  rw [entryFields, indexOf_of_lt k.isLt]
  rfl

theorem entryFields_none {E : Type} {n i : Nat} (fields : E → List Word32) (es : Vector E n) (hi : n ≤ i) :
    entryFields fields es i = [] := by
  rw [entryFields, indexOf_of_le hi]
  rfl

theorem get_set_self {E : Type} {n : Nat} (es : Vector E n) (k : Fin n) (x : E) :
    (es.set k.val x k.isLt).get k = x := by
  rw [Vector.get_eq_getElem, Vector.getElem_set_self]

theorem get_set_ne {E : Type} {n : Nat} (es : Vector E n) {k j : Fin n} (hne : k ≠ j) (x : E) :
    (es.set k.val x k.isLt).get j = es.get j := by
  rw [Vector.get_eq_getElem, Vector.get_eq_getElem, Vector.getElem_set_ne _ _ (fun h => hne (Fin.ext h))]

theorem entryFields_set_ne {E : Type} {n : Nat} (fields : E → List Word32) (es : Vector E n) (k : Fin n) (x : E)
    {i : Nat} (hne : i ≠ k.val) : entryFields fields (es.set k.val x k.isLt) i = entryFields fields es i := by
  by_cases hi : i < n
  · have hkj : k ≠ ⟨i, hi⟩ := fun h => hne (congrArg Fin.val h).symm
    rw [entryFields, entryFields, indexOf_of_lt hi, Option.elim_some, Option.elim_some, get_set_ne es hkj]
  · rw [entryFields_none fields _ (Nat.not_lt.mp hi), entryFields_none fields _ (Nat.not_lt.mp hi)]

/-! ## The fields of a bank -/

/-- The fields of an entry of a bank, by table and index. -/
def bankFields (b : Bank) (table index : Nat) : List Word32 :=
  match table with
  | 0 => entryFields channelFields b.channels index
  | 1 => entryFields triggerFields b.triggers index
  | 2 => entryFields profileFields b.profiles index
  | 3 => entryFields lineFields b.lines index
  | 4 => if index = 0 then settingsFields b.settings else []
  | _ => []

theorem bankFields_settings (b : Bank) (i : Nat) :
    bankFields b 4 i = if i = 0 then settingsFields b.settings else [] := rfl

theorem readBank_settings (b : Bank) (i f : Nat) :
    readBank b 4 i f = if i = 0 then readSettings b.settings f else none := rfl

theorem writeBank_settings (b : Bank) (i f : Nat) (v : Word32) : writeBank b 4 i f v =
    if i = 0 then (writeSettings b.settings f v).map fun x => { b with settings := x } else none := rfl

theorem bind_read {E : Type} {n : Nat} {read : E → Nat → Option Word32} {fields : E → List Word32} (es : Vector E n)
    (hread : ∀ e f, read e f = (fields e)[f]?) (i f : Nat) :
    ((indexOf n i).bind fun k => read (es.get k) f) = (entryFields fields es i)[f]? := by
  unfold entryFields
  cases indexOf n i with
  | none => rfl
  | some k => exact hread _ _

theorem readBank_eq (b : Bank) (table index f : Nat) : readBank b table index f = (bankFields b table index)[f]? :=
  match table with
  | 0 => bind_read b.channels readChannel_eq index f
  | 1 => bind_read b.triggers readTrigger_eq index f
  | 2 => bind_read b.profiles readProfile_eq index f
  | 3 => bind_read b.lines readLine_eq index f
  | 4 => by
    rw [readBank_settings, bankFields_settings]
    split
    · exact readSettings_eq b.settings f
    · rfl
  | _ + 5 => rfl

theorem length_entryFields {E : Type} {n m : Nat} {fields : E → List Word32} (hfields : ∀ e, (fields e).length = m)
    (es : Vector E n) (i : Nat) : (entryFields fields es i).length = if i < n then m else 0 := by
  by_cases hi : i < n
  · rw [entryFields, indexOf_of_lt hi, if_pos hi]
    exact hfields _
  · rw [entryFields_none fields es (Nat.not_lt.mp hi), if_neg hi]
    rfl

theorem length_bankFields (b : Bank) (table index : Nat) :
    (bankFields b table index).length = if index < entriesOf table then fieldsOf table else 0 :=
  match table with
  | 0 => length_entryFields (fields := channelFields) (fun _ => rfl) b.channels index
  | 1 => length_entryFields (fields := triggerFields) (fun _ => rfl) b.triggers index
  | 2 => length_entryFields (fields := profileFields) (fun _ => rfl) b.profiles index
  | 3 => length_entryFields (fields := lineFields) (fun _ => rfl) b.lines index
  | 4 => by
    have hentries : index < entriesOf 4 ↔ index = 0 := Nat.lt_one_iff
    rw [bankFields_settings, if_congr hentries rfl rfl]
    split <;> rfl
  | _ + 5 => (if_neg (Nat.not_lt_zero index)).symm

/-! ## A write of a bank -/

/-- A write to a field of a bank: taken exactly when `P` holds, and then that field alone is set. -/
structure BankWrites (b : Bank) (table index f : Nat) (v : Word32) (P : Prop) (out : Option Bank) : Prop where
  accepts : out.isSome = true ↔ P
  sets : ∀ c, out = some c → bankFields c table index = (bankFields b table index).set f v
  keeps : ∀ c t i, out = some c → (t, i) ≠ (table, index) → bankFields c t i = bankFields b t i

/-- A write to a field of a table of entries. -/
theorem table_writes {E : Type} {n : Nat} {es : Vector E n} {fields : E → List Word32} {write : E → Option E}
    {put : Vector E n → Bank} {b : Bank} {table index f : Nat} {P : Prop}
    (hwrite : ∀ e, Writes fields e f v P (write e))
    (hfields : ∀ i, bankFields b table i = entryFields fields es i)
    (hput : ∀ es' i, bankFields (put es') table i = entryFields fields es' i)
    (hothers : ∀ es' t i, t ≠ table → bankFields (put es') t i = bankFields b t i) :
    BankWrites b table index f v (index < n ∧ P) ((indexOf n index).bind fun k =>
      (write (es.get k)).map fun x => put (es.set k.val x k.isLt)) := by
  by_cases hindex : index < n
  · rw [indexOf_of_lt hindex]
    have hentry := hwrite (es.get ⟨index, hindex⟩)
    refine ⟨?_, fun c hc => ?_, fun c t i hc hne => ?_⟩
    · rw [Option.bind_some, Option.isSome_map, hentry.accepts]
      exact (and_iff_right hindex).symm
    · obtain ⟨x, hx, rfl⟩ := Option.map_eq_some_iff.mp hc
      rw [hput, hfields]
      have hset := entryFields_get fields (es.set index x hindex) ⟨index, hindex⟩
      have hget := entryFields_get fields es ⟨index, hindex⟩
      rw [get_set_self es ⟨index, hindex⟩ x] at hset
      rw [hset, hget, hentry.sets x hx]
    · obtain ⟨x, hx, rfl⟩ := Option.map_eq_some_iff.mp hc
      by_cases htable : t = table
      · subst htable
        rw [hput, hfields]
        exact entryFields_set_ne fields es ⟨index, hindex⟩ x fun hi => hne (hi ▸ rfl)
      · exact hothers _ t i htable
  · rw [indexOf_of_le (Nat.not_lt.mp hindex)]
    exact ⟨⟨nofun, fun h => absurd h.1 hindex⟩, nofun, nofun⟩

theorem settings_writes (b : Bank) (index f : Nat) (v : Word32) :
    BankWrites b 4 index f v (index < 1 ∧ InRange 4 f v) (writeBank b 4 index f v) := by
  rw [writeBank_settings]
  by_cases hindex : index = 0
  · subst hindex
    rw [if_pos rfl]
    have hentry := writeSettings_writes b.settings f v
    refine ⟨?_, fun c hc => ?_, fun c t i hc hne => ?_⟩
    · rw [Option.isSome_map, hentry.accepts]
      exact (and_iff_right Nat.zero_lt_one).symm
    · obtain ⟨x, hx, rfl⟩ := Option.map_eq_some_iff.mp hc
      exact hentry.sets x hx
    · obtain ⟨x, -, rfl⟩ := Option.map_eq_some_iff.mp hc
      match t with
      | 0 | 1 | 2 | 3 | _ + 5 => rfl
      | 4 =>
        have hi : i ≠ 0 := fun hi => hne (hi ▸ rfl)
        rw [bankFields_settings, bankFields_settings, if_neg hi, if_neg hi]
  · rw [if_neg hindex]
    exact ⟨⟨nofun, fun h => absurd h.1 (by omega)⟩, nofun, nofun⟩

theorem writeBank_writes (b : Bank) (table index f : Nat) (v : Word32) :
    BankWrites b table index f v (index < entriesOf table ∧ InRange table f v) (writeBank b table index f v) :=
  match table with
  | 0 => table_writes (put := fun es => { b with channels := es }) (fun e => writeChannel_writes e f v)
      (fun _ => rfl) (fun _ _ => rfl) fun _ t _ ht => match t with
        | 0 => absurd rfl ht
        | 1 | 2 | 3 | 4 | _ + 5 => rfl
  | 1 => table_writes (put := fun es => { b with triggers := es }) (fun e => writeTrigger_writes e f v)
      (fun _ => rfl) (fun _ _ => rfl) fun _ t _ ht => match t with
        | 1 => absurd rfl ht
        | 0 | 2 | 3 | 4 | _ + 5 => rfl
  | 2 => table_writes (put := fun es => { b with profiles := es }) (fun e => writeProfile_writes e f v)
      (fun _ => rfl) (fun _ _ => rfl) fun _ t _ ht => match t with
        | 2 => absurd rfl ht
        | 0 | 1 | 3 | 4 | _ + 5 => rfl
  | 3 => table_writes (put := fun es => { b with lines := es }) (fun e => writeLine_writes e f v)
      (fun _ => rfl) (fun _ _ => rfl) fun _ t _ ht => match t with
        | 3 => absurd rfl ht
        | 0 | 1 | 2 | 4 | _ + 5 => rfl
  | 4 => settings_writes b index f v
  | _ + 5 => ⟨⟨nofun, fun h => absurd h.1 (Nat.not_lt_zero index)⟩, nofun, nofun⟩

/-- Table 8-2 has a range for the fields of Table 8-1 alone. -/
theorem InRange_lt {table f : Nat} {v : Word32} (h : InRange table f v) : f < fieldsOf table := by
  unfold InRange at h
  dsimp only at h
  split at h
  case h_33 => exact h.elim
  all_goals decide

/-- Settles O50. -/
theorem writtenFieldReadsBack : Obligations.WrittenFieldReadsBack := by
  refine ⟨fun b table index field v => ⟨(writeBank_writes b table index field v).accepts, fun c hc => ?_⟩,
    fun b t i f => ?_, fun b f => ⟨fun i => ?_, fun i => ?_, fun i => ?_, fun i => ?_, ?_⟩⟩
  · have hwrites := writeBank_writes b table index field v
    obtain ⟨hindex, hrange⟩ := hwrites.accepts.mp (hc ▸ rfl)
    have hlength : field < (bankFields b table index).length := by
      rw [length_bankFields, if_pos hindex]
      exact InRange_lt hrange
    refine ⟨?_, fun t i f hne => ?_⟩
    · rw [readBank_eq, hwrites.sets c hc, List.getElem?_set_self hlength]
    · rw [readBank_eq, readBank_eq]
      by_cases hentry : (t, i) = (table, index)
      · obtain ⟨rfl, rfl⟩ := Prod.mk.inj hentry
        rw [hwrites.sets c hc, List.getElem?_set_ne fun hf : field = f => hne (by rw [hf])]
      · rw [hwrites.keeps c t i hc hentry]
  · rw [readBank_eq, isSome_getElem?, length_bankFields]
    split
    · exact (and_iff_right ‹_›).symm
    · exact ⟨fun h => absurd h (Nat.not_lt_zero f), fun h => absurd h.1 ‹_›⟩
  · exact (readBank_eq b _ _ f).trans (congrArg (·[f]?) (entryFields_get _ _ i))
  · exact (readBank_eq b _ _ f).trans (congrArg (·[f]?) (entryFields_get _ _ i))
  · exact (readBank_eq b _ _ f).trans (congrArg (·[f]?) (entryFields_get _ _ i))
  · exact (readBank_eq b _ _ f).trans (congrArg (·[f]?) (entryFields_get _ _ i))
  · rw [readBank_eq, bankFields_settings, if_pos rfl]

end Sys2Proof.Machine
end

section
/-! R184: what a READ answers. Each block's answers are the items of its list in field order (`itemAnswer`). -/

namespace Sys2Proof.Machine

open Stated

variable {s : State} {q : Request}

/-! ## Answers and items -/

/-- A READ answered with an item. -/
def ofItem (x : Item) : Answer := { result := .ok, value := x.1, aux := x.2 }

/-- A READ answered with the item of a list, BADARG past the last. -/
def itemAnswer (items : List Item) (field : Nat) : Answer := (items[field]?).elim badArg ofItem

/-- The reply that carries an answer. -/
def answered (s : State) (q : Request) (a : Answer) : State := replied s q a.result a.value a.aux

theorem itemReply_eq (s : State) (q : Request) (items : List Item) (field : Nat) :
    itemReply s q items field = answered s q (itemAnswer items field) := by
  unfold itemReply itemAnswer
  cases items[field]? <;> rfl

theorem okRound_eq (r : Option Round) : okRound r = ofItem (rounded r) := by cases r <;> rfl

theorem okFlag_eq (b : Bool) : okFlag b = ofItem (flagged b) := by cases b <;> rfl

/-- A bit vector reads as its number. -/
theorem okValue_setWidth {w : Nat} (x : BitVec w) : okValue (x.setWidth 32) = ofItem (numbered x.toNat) := by
  rw [← word_mask]
  rfl

/-! ## The blocks -/

theorem answerStateHistory_eq (h : Store) : ∀ field, answerStateHistory h field = itemAnswer (historyItems h) field
  | 0 => rfl
  | 1 => okRound_eq _
  | 2 => okRound_eq _
  | 3 => okRound_eq _
  | _ + 4 => rfl

theorem answerUnit_eq (u : CondUnit) : ∀ field, answerUnit u field = itemAnswer (unitItems u) field
  | 0 => by unfold answerUnit unitItems; cases u.state <;> rfl
  | 1 => by unfold answerUnit unitItems; cases u.state <;> rfl
  | 2 => okRound_eq _
  | 3 => okRound_eq _
  | 4 => by unfold answerUnit unitItems; cases u.lastDuration <;> rfl
  | 5 => rfl
  | _ + 6 => rfl

theorem answerEntry_eq (t : TriggerTable) (l : EntryLive) :
    ∀ field, answerEntry t l field = itemAnswer (entryItems t l) field
  | 0 => by unfold answerEntry entryItems; cases l.state <;> rfl
  | 1 => rfl
  | 2 => okRound_eq _
  | 3 => rfl
  | 4 => by unfold answerEntry entryItems; cases l.state <;> rfl
  | 5 => okFlag_eq _
  | 6 => okFlag_eq _
  | 7 => okRound_eq _
  | _ + 8 => rfl

/-- Table 10-2: the flags byte of a window reads as its number. -/
theorem windowFlags_word (f : WinFlags) : (windowFlagsByte f).setWidth 32 = word (flagsNumber f) := by
  obtain ⟨a, b, c, d, e, g⟩ := f
  revert a b c d e g
  decide

theorem answerWindow_some (v : EngineView) {w : Window} {position : Nat} (hw : v.windows[position]? = some w) :
    ∀ field, answerWindow v (some w) field = itemAnswer (windowItems v position) field := by
  intro field
  unfold windowItems
  rw [hw]
  match field with
  | 0 => unfold answerWindow; cases w.state <;> rfl
  | 1 => exact okValue_setWidth _
  | 2 => rfl
  | 3 => rfl
  | 4 => rfl
  | 5 => rfl
  | 6 => rfl
  | 7 => exact congrArg okValue (windowFlags_word w.flags)
  | 8 => exact okFlag_eq _
  | 9 => exact okValue_setWidth _
  | _ + 10 => rfl

theorem answerWindow_none (v : EngineView) {position : Nat} (hw : v.windows[position]? = none) :
    ∀ field, answerWindow v none field = itemAnswer (windowItems v position) field := by
  intro field
  unfold windowItems
  rw [hw]
  match field with
  | 0 | 1 | 2 | 3 | 4 | 5 | 6 | 7 => rfl
  | 8 => exact okFlag_eq _
  | 9 => exact okValue_setWidth _
  | _ + 10 => rfl

theorem answerStateWindow_eq (v : EngineView) {position : Nat} (hposition : position ≤ 5) (field : Nat) :
    answerStateWindow v position field = itemAnswer (windowItems v position) field := by
  rw [answerStateWindow, if_pos hposition]
  cases hw : v.windows[position]? with
  | none => exact answerWindow_none v hw field
  | some w => exact answerWindow_some v hw field

/-- R120: the level of a pin. -/
theorem pinLevel_eq (u : LineUnit) (n : Fin 8) :
    pinLevel (u.entries.get n) (u.lines.get n) u.held = pinOfLine u n := by
  unfold pinLevel pinOfLine
  simp only [Bool.and_eq_true, Bool.not_eq_true', decide_eq_true_iff]
  by_cases hdriven : u.held = false ∧ (u.entries.get n).enable = true ∧ u.lines.get n ≠ .inactive
  · obtain ⟨hheld, henable, hactive⟩ := hdriven
    rw [if_pos ⟨⟨henable, hheld⟩, hactive⟩, if_pos ⟨hheld, henable, hactive⟩]
    cases (u.entries.get n).idle <;> rfl
  · rw [if_neg hdriven, if_neg fun h => hdriven ⟨h.1.2, h.1.1, h.2⟩]

theorem word_levelCode (x : Level) : word (levelCode x) = levelWord x := by cases x <;> rfl

theorem answerLine_eq (u : LineUnit) (n : Fin 8) : ∀ field, answerLine u n field = itemAnswer (lineItems u n) field
  | 0 => okFlag_eq _
  | 1 => by unfold answerLine lineItems; cases u.lines.get n <;> rfl
  | 2 => congrArg okValue ((word_levelCode _).trans (congrArg levelWord (pinLevel_eq u n)))
  | 3 => okFlag_eq _
  | 4 => okRound_eq _
  | _ + 5 => rfl

theorem answerOccupancy_eq (g : Egress) : ∀ index, answerOccupancy g index = itemAnswer (occupancyItems g) index
  | 0 | 1 | 2 | 3 | 4 | 5 | _ + 6 => rfl

theorem answerStateEgress_eq (g : Egress) (index : Nat) :
    ∀ field, answerStateEgress g index (field + 1) = itemAnswer (egressItems g) field
  | 0 => rfl
  | 1 => okValue_setWidth _
  | 2 => okFlag_eq _
  | 3 => rfl
  | 4 => okValue_setWidth _
  | _ + 5 => rfl

theorem answerStateAgent_eq (s : State) : ∀ field, answerStateAgent s field = itemAnswer (agentItems s) field
  | 0 => by unfold answerStateAgent agentItems; cases s.agent.session <;> rfl
  | 1 => rfl
  | 2 => congrArg (fun n => okValue (word n)) (leaseRemaining_eq s)
  | 3 => okValue_setWidth _
  | 4 => rfl
  | 5 => rfl
  | 6 => okFlag_eq _
  | _ + 7 => rfl

theorem answerCounter_eq (c : Counters) : ∀ index, answerCounter c index = itemAnswer (counterItems c) index
  | 0 | 1 | 2 | 3 | 4 | 5 | 6 | 7 | 8 | 9 | 10 | 11 | 12 | 13 | 14 | 15 | 16 | 17 | 18 | 19 | 20 => rfl
  | _ + 21 => rfl

theorem bankReply_eq (s : State) (q : Request) (b : Bank) : bankReply s q b = answered s q (answerBank b q) := by
  unfold bankReply answerBank
  cases readBank b q.table.toNat q.index.toNat q.field.toNat <;> rfl

/-! ## READ at service -/

/-- R184: what a READ of a known target answers. -/
def targetAnswer (s : State) (q : Request) (target : ReadTarget) : Answer :=
  match target with
  | .active => answerBank s.agent.active q
  | .staging => answerBank s.agent.staging q
  | .history => answerHistory s.store q
  | .counters => answerCounter s.counters q.index.toNat
  | .block .history => answerStateHistory s.store q.field.toNat
  | .block .condition => answerStateCondition s.evaluator q.index.toNat q.field.toNat
  | .block .trigger => answerStateTrigger s.table q.index.toNat q.field.toNat
  | .block .window => answerStateWindow (engineView s.engine) q.index.toNat q.field.toNat
  | .block .line => answerStateLine s.lines q.index.toNat q.field.toNat
  | .block .egress => answerStateEgress s.egress q.index.toNat q.field.toNat
  | .block .agent => answerStateAgent s q.field.toNat

theorem answerRead_target {target : ReadTarget} (htarget : readTargetOf q.area q.table = some target) :
    answerRead s q = targetAnswer s q target := by
  rw [answerRead, htarget]
  cases target with
  | block item => cases item <;> rfl
  | active => rfl
  | staging => rfl
  | history => rfl
  | counters => rfl

/-- R184: a READ of a known target is answered by the command of that target. -/
theorem read_target {target : ReadTarget} {a : Answer} (h : Serving s q .read)
    (htarget : readTargetOf q.area q.table = some target) (hanswer : targetAnswer s q target = a) :
    serve s .read (serveRead target) = answered s q a := by
  have hreads : readsTarget q target = true := by
    rw [readsTarget, htarget]
    exact decide_eq_true rfl
  rw [serve_of h, serveRead, if_pos hreads, answerRead_target htarget, hanswer]
  rfl

theorem read_item {target : ReadTarget} {items : List Item} {field : Nat} (h : Serving s q .read)
    (htarget : readTargetOf q.area q.table = some target) (hanswer : targetAnswer s q target = itemAnswer items field) :
    serve s .read (serveRead target) = itemReply s q items field :=
  (read_target h htarget hanswer).trans (itemReply_eq s q items field).symm

/-- A READ of an unknown area or block item is answered BADARG by whichever READ command serves it. -/
theorem read_unknown (target : ReadTarget) (h : Serving s q .read) (htarget : readTargetOf q.area q.table = none) :
    serve s .read (serveRead target) = replied s q .badArg 0 0 := by
  have hreads : readsTarget q target = true := by rw [readsTarget, htarget]
  have hanswer : answerRead s q = badArg := by rw [answerRead, htarget]
  rw [serve_of h, serveRead, if_pos hreads, hanswer]
  rfl

theorem readTargetOf_unknown {area table : Byte} (h : 4 < area.toNat ∨ (area = 0x02#8 ∧ 6 < table.toNat)) :
    readTargetOf area table = none := by
  obtain harea | ⟨rfl, htable⟩ := h
  · unfold readTargetOf
    split
    case h_6 => rfl
    all_goals omega
  · have hitem : blockItemOf table = none := by
      unfold blockItemOf
      split
      case h_8 => rfl
      all_goals omega
    show (blockItemOf table).map ReadTarget.block = none
    rw [hitem]
    rfl

/-- The target of a READ of the STATE area. -/
theorem readTargetOf_state {item : BlockItem} (harea : q.area = 0x02#8) (hitem : blockItemOf q.table = some item) :
    readTargetOf q.area q.table = some (.block item) := by
  rw [harea]
  show (blockItemOf q.table).map ReadTarget.block = _
  rw [hitem]
  rfl

theorem answerStateCondition_eq (v : Evaluator) {index : Nat} {i : Fin 16} (hi : index = i.val) (field : Nat) :
    answerStateCondition v index field = itemAnswer (unitItems (v.units.get i)) field := by
  rw [hi, answerStateCondition, indexOf_of_lt i.isLt]
  exact answerUnit_eq _ field

theorem answerStateTrigger_eq (t : TriggerTable) {index : Nat} {i : Fin 8} (hi : index = i.val) (field : Nat) :
    answerStateTrigger t index field = itemAnswer (entryItems t (t.live.get i)) field := by
  rw [hi, answerStateTrigger, indexOf_of_lt i.isLt]
  exact answerEntry_eq t _ field

theorem answerStateLine_eq (u : LineUnit) {index : Nat} {n : Fin 8} (hn : index = n.val) (field : Nat) :
    answerStateLine u index field = itemAnswer (lineItems u n) field := by
  rw [hn, answerStateLine, indexOf_of_lt n.isLt]
  exact answerLine_eq u n field

theorem answerStateCondition_bad (v : Evaluator) {index : Nat} (hi : 16 ≤ index) (field : Nat) :
    answerStateCondition v index field = badArg := by rw [answerStateCondition, indexOf_of_le hi]

theorem answerStateTrigger_bad (t : TriggerTable) {index : Nat} (hi : 8 ≤ index) (field : Nat) :
    answerStateTrigger t index field = badArg := by rw [answerStateTrigger, indexOf_of_le hi]

theorem answerStateWindow_bad (v : EngineView) {index : Nat} (hi : 6 ≤ index) (field : Nat) :
    answerStateWindow v index field = badArg := if_neg (by omega)

theorem answerStateLine_bad (u : LineUnit) {index : Nat} (hn : 8 ≤ index) (field : Nat) :
    answerStateLine u index field = badArg := by rw [answerStateLine, indexOf_of_le hn]

theorem answerStateEgress_occupancy (g : Egress) (index : Nat) {field : Nat} (hf : field = 0) :
    answerStateEgress g index field = itemAnswer (occupancyItems g) index := hf ▸ answerOccupancy_eq g index

theorem answerStateEgress_items (g : Egress) (index : Nat) {field : Nat} (hf : 1 ≤ field) :
    answerStateEgress g index field = itemAnswer (egressItems g) (field - 1) := by
  obtain ⟨k, rfl⟩ := Nat.exists_eq_add_of_le' hf
  exact answerStateEgress_eq g index k

/-- Settles O56. -/
theorem readsAnswerTheirArea : Obligations.ReadsAnswerTheirArea := by
  intro s q h
  have hbank {b : Bank} {target : ReadTarget} (htarget : readTargetOf q.area q.table = some target)
      (hanswer : targetAnswer s q target = answerBank b q) : serve s .read (serveRead target) = bankReply s q b :=
    (read_target h htarget hanswer).trans (bankReply_eq s q b).symm
  refine ⟨fun harea => congrArg _ (hbank (target := .active) ?_ rfl),
    fun harea => congrArg _ (hbank (target := .staging) ?_ rfl),
    fun harea => congrArg _ (read_item (target := .counters) h ?_ (answerCounter_eq _ _)),
    fun harea => congrArg _ (read_target (target := .history) h ?_ rfl),
    fun harea htable => congrArg _ (read_item h (readTargetOf_state (item := .history) harea ?_)
        (answerStateHistory_eq _ _)),
    fun harea htable => ⟨fun i hi => congrArg _
        (read_item h (readTargetOf_state (item := .condition) harea ?_) (answerStateCondition_eq _ hi _)),
      fun hi => congrArg _ (read_target h (readTargetOf_state (item := .condition) harea ?_)
          (answerStateCondition_bad _ hi _))⟩,
    fun harea htable => ⟨fun i hi => congrArg _
        (read_item h (readTargetOf_state (item := .trigger) harea ?_) (answerStateTrigger_eq _ hi _)),
      fun hi => congrArg _ (read_target h (readTargetOf_state (item := .trigger) harea ?_)
          (answerStateTrigger_bad _ hi _))⟩,
    fun harea htable => ⟨fun hi => congrArg _
        (read_item h (readTargetOf_state (item := .window) harea ?_) (answerStateWindow_eq _ hi _)),
      fun hi => congrArg _ (read_target h (readTargetOf_state (item := .window) harea ?_)
          (answerStateWindow_bad _ hi _))⟩,
    fun harea htable => ⟨fun n hn => congrArg _
        (read_item h (readTargetOf_state (item := .line) harea ?_) (answerStateLine_eq _ hn _)),
      fun hn => congrArg _ (read_target h (readTargetOf_state (item := .line) harea ?_) (answerStateLine_bad _ hn _))⟩,
    fun harea htable => ⟨fun hf => congrArg _
        (read_item h (readTargetOf_state (item := .egress) harea ?_) (answerStateEgress_occupancy _ _ hf)),
      fun hf => congrArg _ (read_item h (readTargetOf_state (item := .egress) harea ?_)
          (answerStateEgress_items _ _ hf))⟩,
    fun harea htable => congrArg _ (read_item h (readTargetOf_state (item := .agent) harea ?_)
        (answerStateAgent_eq _ _)),
    fun hunknown c hc => ?_⟩
  case refine_17 =>
    have hbad (target : ReadTarget) := read_unknown target h (readTargetOf_unknown hunknown)
    fin_cases hc <;> exact congrArg Host.Outcome.next (hbad _)
  case refine_1 | refine_2 | refine_3 | refine_4 => rw [harea]; rfl
  all_goals rw [htable]; rfl

end Sys2Proof.Machine
end
